-- ==== Sys2Proof/Word.lean ====
section
/-! DEFINITION. The bit vectors of the block (00_scope.md R5, R8; 10_state.md R10): a serial byte, the shift counter, the
3-bit output group. All values are unsigned. -/

namespace Sys2Proof

/-- A serial byte, BYTE_W = 8 bits (R5): `SR`, `BR`, `OUTD`, the argument of a command. -/
abbrev Byte := BitVec 8

/-- The shift counter, CNT_W = 4 bits, counting 0 to 15 (R5, R13). -/
abbrev Count := BitVec 4

/-- The 3-bit output group, OUTB_W = 3 (R5, R20). -/
abbrev Tribit := BitVec 3

end Sys2Proof
end

