-- ==== Sys2Proof/Config.lean ====
section
/-! DEFINITION. The protocol's two fixed enumerations, the parameters of 00_scope.md R5 with the spec's defaults, and the
free values for what the spec leaves unspecified (93_implementation_defined.md U1 to U3). -/

namespace Sys2Proof

/-- The two output groups a command can target (20_memory.md R41): `d` is the 8-bit group, `b` the 3-bit group. -/
inductive OutputGroup where
  | d
  | b
deriving DecidableEq, Repr

/-- The Command Sequence Position `SEQ` (10_state.md R18): two variants, the second carrying the pending opcode. -/
inductive SeqPosition where
  | awaitingOpcode
  | awaitingArgument (pending : OutputGroup)
deriving DecidableEq, Repr

/-- The open parameters of the block (R5; 92_eei_decisions.md, "Open parameters"), each with the spec's default. -/
structure Config where
  /-- `RESYNC_ON_SELECT`: false is policy (a), true is policy (b) (43_dispatcher.md R116, decision D9). -/
  resyncOnSelect : Bool := false
  /-- `OUTD_RESET` (R161, decision D13). -/
  outdReset : Byte := 0x00#8
  /-- `OUTB_RESET` (R161, decision D13). -/
  outbReset : Tribit := 0b000#3
  /-- `OPC_D`, the byte of the letter `D` (R64, decision D18; general knowledge G1: log entry 8). -/
  opcD : Byte := 0x44#8
  /-- `OPC_B`, the byte of the letter `B` (R64, decision D18; general knowledge G1: log entry 8). -/
  opcB : Byte := 0x42#8
deriving DecidableEq, Repr

/-- Every parameter at the spec's default: the block `step` runs. -/
def Config.standard : Config where

/-- The opcode byte that selects an output group (R41, R64). -/
def Config.opcode (cfg : Config) : OutputGroup → Byte
  | .d => cfg.opcD
  | .b => cfg.opcB

/-- FREE VALUE (log entry 6): an unspecified byte. The `n`-th draw; `SR` and `BR` after a `Reset` event (R160, U1, U3). -/
opaque Config.freeByte : Nat → Byte

/-- FREE VALUE (log entry 6): an unspecified bit. The `n`-th draw; `DIN` after a `Reset` event (R160, U2). -/
opaque Config.freeBit : Nat → Bool

end Sys2Proof
end

