-- ==== Sys2Proof/Syntax.lean ====
section
/-! DEFINITION. The items a bus master can send (30_encoding.md R62 to R64), one constructor per row of
spec/opcode_table.json. -/

namespace Sys2Proof

/-- An item of the consumed byte stream. -/
inductive Instr where
  /-- `D v`, format C2 (44_commands.md R120): set the 8-bit group to the argument byte. -/
  | d (arg : Byte)
  /-- `B v`, format C2 (R121): set the 3-bit group to the low 3 bits of the argument byte. The whole byte is kept; bits
  7:3 are ignored by the meaning, not dropped by the decoder. -/
  | b (arg : Byte)
  /-- A rejected byte, format R1 (R122): any first byte that is not a recognised opcode. -/
  | rej (opcode : Byte)
deriving DecidableEq, Repr

end Sys2Proof
end

