-- ==== Sys2Proof/Machine/State.lean ====
section
/-! DEFINITION. The state of the block: the ten elements of 10_state.md R10, and three fields of the model's own (the
events still to be taken, the result of the step just taken, the draw counter of the free values). The block has no
memory (20_memory.md R40), so State has none. -/

namespace Sys2Proof.Machine

/-- One event (00_scope.md R6). None is encoded in bits (30_encoding.md R72). -/
inductive Event where
  /-- `Reset`, issued by the platform (R160). -/
  | reset
  /-- `SelAssert`, issued by the bus master (R80). -/
  | selAssert
  /-- `SelDeassert`, issued by the bus master (R82). -/
  | selDeassert
  /-- `ClkEdge(m)`, issued by the bus master; `m` is the level of the data-input line at that moment (R90). -/
  | clkEdge (m : Bool)
  /-- `Consume`, the Consumer's one step (R110). -/
  | consume
  /-- `IsBusy`, issued by the local caller (R100). -/
  | isBusy
  /-- `Put(v)`, issued by the local caller (R102). -/
  | put (v : Byte)
  /-- `Get`, issued by the local caller (R104). -/
  | get
deriving DecidableEq, Repr

/-- The result of a `Consume` (60_exceptions.md R135). -/
inductive ConsumeResult where
  | ok
  | rejected
deriving DecidableEq, Repr

/-- The result of a `Put` (R135). -/
inductive PutResult where
  | ok
  | tryLater
deriving DecidableEq, Repr

/-- What the local operation port carries out of one event (10_state.md R27). -/
inductive Result where
  | consume (r : ConsumeResult)
  | put (r : PutResult)
  | isBusy (busy : Bool)
  | get (byte : Byte)
deriving DecidableEq, Repr

/-- Reasons for the machine to stop with a fault. There is none: "The block raises no trap and no exception"
(60_exceptions.md R130), and every rule is total (92_eei_decisions.md D19, D28). -/
inductive Fault where
deriving DecidableEq, Repr

/-- Reasons for an instruction to have no meaning in the model. -/
inductive Refusal where
  /-- Raised only by an arm of `exec` whose instruction is not modelled yet; safe. No arm raises it: all are modelled. -/
  | notModelled (mnemonic : String)
deriving DecidableEq, Repr

/-- The whole state (R10), then the model's own three fields. -/
structure State where
  /-- `SR`, the shift register (R11). -/
  sr : Byte
  /-- `DIN`, the level sampled at the latest sampling half-edge (R12). -/
  din : Bool
  /-- `CNT`, the shift counter: half-edges honoured in the current byte (R13). -/
  cnt : Count
  /-- `BR`, the Byte Register (R14). -/
  br : Byte
  /-- `RDY`, the Byte-Ready Flag (R15). -/
  rdy : Bool
  /-- `EN`, the Transport Enable State (R16). -/
  en : Bool
  /-- `CONFLICT`, the record kept by `IsBusy` and `Put` (R17). -/
  conflict : Bool
  /-- `SEQ`, the Command Sequence Position (R18). -/
  seq : SeqPosition
  /-- `OUTD`, the 8-bit output group (R19). -/
  outd : Byte
  /-- `OUTB`, the 3-bit output group (R20). -/
  outb : Tribit
  /-- The model's own (log entry 1): the events still to be taken, in the order the agents are scheduled (R6, R52). -/
  events : List Event
  /-- The model's own (log entry 4): the result of the event just taken, on the local operation port. Nothing reads it. -/
  result : Option Result
  /-- The model's own (log entry 6): how many unspecified values have been drawn. -/
  draws : Nat
deriving DecidableEq, Repr

/-- The machine right after `Reset` (70_reset_and_hazards.md R161), with nothing scheduled. `SR`, `DIN` and `BR` are
unspecified there: zero is this model's named value (log entry 5). -/
def State.reset : State where
  sr := 0x00#8
  din := false
  cnt := 0#4
  br := 0x00#8
  rdy := false
  en := false
  conflict := false
  seq := .awaitingOpcode
  outd := Config.standard.outdReset
  outb := Config.standard.outbReset
  events := []
  result := none
  draws := 0

end Sys2Proof.Machine
end

