-- ==== Sys2Proof/Machine/Flags.lean ====
section
/-! DEFINITION. The one-bit flags (10_state.md R23, R24): the busy condition and the writes of `RDY`, `EN`, `CONFLICT`. -/

namespace Sys2Proof.Machine

/-- Busy, not stored: `CNT ≠ 0` (R24; 42_transport_access.md R100). -/
def State.busy (s : State) : Bool := s.cnt != 0#4

/-- Write `RDY` (R15). -/
def State.setRdy (s : State) (v : Bool) : State := { s with rdy := v }

/-- Write `EN` (R16). -/
def State.setEn (s : State) (v : Bool) : State := { s with en := v }

/-- The query `IsBusy` and `Put` make: `CONFLICT <- (CNT ≠ 0)`, not sticky (R17; R101). -/
def State.recordQuery (s : State) : State := { s with conflict := s.busy }

end Sys2Proof.Machine
end

