-- ==== Sys2Proof/Machine/Operands.lean ====
section
/-! DEFINITION. The operand forms of the commands (30_encoding.md R65, R66) and the bit operations of the shift register
(44_commands.md R126). -/

namespace Sys2Proof.Machine

/-- `ARG_MASK_B` = 0b00000111 (00_scope.md R5). -/
def argMaskB : Byte := 0b00000111#8

/-- The operand of `D`: the whole argument byte, verbatim (R65). -/
def operandD (arg : Byte) : Byte := arg

/-- The operand of `B`: `(arg & 0b00000111)[2:0]` (R66). -/
def operandB (arg : Byte) : Tribit := (arg &&& argMaskB).extractLsb' 0 3

/-- `SR[6:0] ∥ DIN`: the serial bit enters at bit 0, the old bit 7 is dropped (41_transport_shift.md R92). -/
def shiftIn (sr : Byte) (din : Bool) : Byte := (sr.extractLsb' 0 7).concat din

/-- `SR[7]`, the bit the data-output line presents (10_state.md R25). -/
def serialOut (sr : Byte) : Bool := sr.getLsbD 7

end Sys2Proof.Machine
end

