-- ==== Sys2Proof/Machine/Ops.lean ====
section
/-! DEFINITION. The shared operations on the registers: the shift register with its sample latch and counter, the
mailbox, the sequence position, the output groups, the local result, and `Reset`. The block has no exception to take and
none to return from (60_exceptions.md R130, R140, R141): there is no such operation. -/

namespace Sys2Proof.Machine

/-- `SR <- v` (42_transport_access.md R102). -/
def State.setSr (s : State) (v : Byte) : State := { s with sr := v }

/-- `CNT <- v` (10_state.md R13). -/
def State.setCnt (s : State) (v : Count) : State := { s with cnt := v }

/-- `SEQ <- p` (R18). -/
def State.setSeq (s : State) (p : SeqPosition) : State := { s with seq := p }

/-- `OUTD <- v`, all eight bits at once (R19; 20_memory.md R48). -/
def State.setOutd (s : State) (v : Byte) : State := { s with outd := v }

/-- `OUTB <- v`, all three bits at once (R20; R48). -/
def State.setOutb (s : State) (v : Tribit) : State := { s with outb := v }

/-- Present a result on the local operation port (R27). -/
def State.answer (s : State) (r : Result) : State := { s with result := some r }

/-- The next half-edge samples: `CNT` is even (R13; 41_transport_shift.md R90). -/
def State.samplesNext (s : State) : Bool := !s.cnt.getLsbD 0

/-- A sampling half-edge (R91): `DIN <- m`, `CNT <- CNT + 1`. -/
def State.sample (s : State) (m : Bool) : State := { s with din := m, cnt := s.cnt + 1#4 }

/-- The shift of a shifting half-edge (R92): `SR <- SR[6:0] ∥ DIN`, `CNT <- (CNT + 1) mod 16`. -/
def State.shift (s : State) : State := { s with sr := shiftIn s.sr s.din, cnt := s.cnt + 1#4 }

/-- Byte completion (R93): copy and flag in one event, `BR <- SR'`, `RDY <- 1`. -/
def State.completeByte (s : State) : State := { s with br := s.sr, rdy := true }

/-- `Reset` (70_reset_and_hazards.md R160). `SR`, `BR` and `DIN` become unspecified: free values, each from a draw of its
own (log entry 6). What the environment has scheduled stays scheduled. -/
def resetBlock (cfg : Config) (s : State) : State :=
  { s with
    seq := .awaitingOpcode
    en := false
    rdy := false
    cnt := 0#4
    conflict := false
    outd := cfg.outdReset
    outb := cfg.outbReset
    sr := Config.freeByte s.draws
    br := Config.freeByte (s.draws + 1)
    din := Config.freeBit s.draws
    draws := s.draws + 2 }

end Sys2Proof.Machine
end

