-- ==== Sys2Proof/Machine/Access.lean ====
section
/-! DEFINITION. The local transport operations `IsBusy`, `Put`, `Get` (42_transport_access.md). -/

namespace Sys2Proof.Machine

/-- `IsBusy` (R100, R101): answers `CNT ≠ 0` and records it. -/
def queryBusy (s : State) : State := s.recordQuery.answer (.isBusy s.busy)

/-- `Put(v)` (R102): makes the busy query; when idle stages the byte in the shift register, else answers TRY_LATER. -/
def putByte (v : Byte) (s : State) : State :=
  if s.busy then s.recordQuery.answer (.put .tryLater)
  else (s.recordQuery.setSr v).answer (.put .ok)

/-- `Get` (R104): answers the Byte Register, with no side effect. -/
def getByte (s : State) : State := s.answer (.get s.br)

end Sys2Proof.Machine
end

