-- ==== Sys2Proof/WellFormed.lean ====
section
/-! DEFINITION. When a configuration and an item are well formed. -/

namespace Sys2Proof

/-- The two recognised opcodes are different bytes, so that the opcode map of 30_encoding.md R64 is one. -/
def Config.wellFormed (cfg : Config) : Bool :=
  cfg.opcD != cfg.opcB

/-- An item the wire can carry: all 256 arguments of `D` and `B` are legal (R65, R66); a rejected byte is any byte but
the two opcodes (R63, R122). -/
def Instr.wellFormed (cfg : Config) : Instr → Bool
  | .d _ => true
  | .b _ => true
  | .rej x => x != cfg.opcD && x != cfg.opcB

end Sys2Proof
end

