-- ==== Sys2Proof/Decode.lean ====
section
/-! DEFINITION. From bytes to items and back (30_encoding.md). `decode` reads one item off a list of bytes; `nextItem` and
`decodeStream` are the byte-at-a-time decoder of R69; `encode` writes an item's bytes; `decodeTableWord` reads a word as
spec/opcode_table.json numbers it. -/

namespace Sys2Proof

/-- Why a list of bytes does not yet hold a whole item. No byte value is ever refused: a byte that names no command is
itself the item REJ (R67). -/
inductive DecodeError where
  /-- There is no byte at all. -/
  | noByte
  /-- A recognised opcode stands at the end of the bytes: the item is 2 bytes long (R69) and its argument is not there. -/
  | argumentMissing (pending : OutputGroup)
deriving DecidableEq, Repr

/-- The opcode map over all 256 first-byte values (R64): the group a recognised opcode selects, or none. The rows are
tried in the order D, B, REJ (R72). -/
def opcodeGroup (cfg : Config) (b : Byte) : Option OutputGroup :=
  if b = cfg.opcD then some .d
  else if b = cfg.opcB then some .b
  else none

/-- The command a pending opcode and its argument byte make (R63). -/
def commandOf (g : OutputGroup) (arg : Byte) : Instr :=
  match g with
  | .d => .d arg
  | .b => .b arg

/-- The length of an item from its first byte alone (R69). -/
def itemLength (cfg : Config) (first : Byte) : Nat :=
  match opcodeGroup cfg first with
  | some _ => 2
  | none => 1

/-- One item read off the front of the bytes, and the rest (R62, R64, R69). -/
def decode (cfg : Config) (bytes : List Byte) : Except DecodeError (Instr × List Byte) :=
  match bytes with
  | [] => .error .noByte
  | first :: rest =>
    match opcodeGroup cfg first, rest with
    | none, _ => .ok (.rej first, rest)
    | some g, [] => .error (.argumentMissing g)
    | some g, arg :: rest' => .ok (commandOf g arg, rest')

/-- What one consumed byte is to the stream decoder (R69). -/
inductive Fetched where
  /-- A recognised opcode in opcode position: nothing is emitted, the next byte is its argument. -/
  | opcode (g : OutputGroup)
  /-- The last byte of an item: the item is emitted. -/
  | item (i : Instr)
deriving DecidableEq, Repr

/-- One turn of the decoder loop of R69. -/
def nextItem (cfg : Config) (pos : SeqPosition) (b : Byte) : Fetched :=
  match pos with
  | .awaitingOpcode =>
    match opcodeGroup cfg b with
    | some g => .opcode g
    | none => .item (.rej b)
  | .awaitingArgument g => .item (commandOf g b)

/-- The decoder of R69 over a stream of consumed bytes: the items emitted, in order, and the position afterwards. -/
def decodeStream (cfg : Config) (pos : SeqPosition) (bytes : List Byte) : List Instr × SeqPosition :=
  match bytes with
  | [] => ([], pos)
  | b :: bs =>
    match nextItem cfg pos b with
    | .opcode g => decodeStream cfg (.awaitingArgument g) bs
    | .item i => (i :: (decodeStream cfg .awaitingOpcode bs).1, (decodeStream cfg .awaitingOpcode bs).2)

/-- The 2-bit code of `SEQ` for an implementation that wants one (10_state.md R18): `00`, `10`, `11`; `01` is unused. -/
def seqCode (pos : SeqPosition) : BitVec 2 :=
  match pos with
  | .awaitingOpcode => 0b00#2
  | .awaitingArgument .d => 0b10#2
  | .awaitingArgument .b => 0b11#2

/-- The bytes of an item in wire order, opcode first (R43, R63). -/
def encode (cfg : Config) (i : Instr) : List Byte :=
  match i with
  | .d arg => [cfg.opcD, arg]
  | .b arg => [cfg.opcB, arg]
  | .rej x => [x]

/-- `k` bytes of a word in wire order: the first byte on the wire is the most significant one (20_memory.md R44). -/
def wordBytes (k w : Nat) : List Byte :=
  match k with
  | 0 => []
  | k + 1 => BitVec.ofNat 8 (w >>> (8 * k)) :: wordBytes k w

/-- An item's bytes as one number, the first byte leftmost: the word the opcode table gives it (R44, R63). -/
def tableWord (cfg : Config) (i : Instr) : Nat :=
  (encode cfg i).foldl (fun w b => 256 * w + b.toNat) 0

/-- How many bits the opcode table gives an item's word: 16 for format C2, 8 for format R1. -/
def tableBits (i : Instr) : Nat :=
  match i with
  | .d _ => 16
  | .b _ => 16
  | .rej _ => 8

/-- The bytes of a table word as they come over the wire; what lies beyond `nbits` is 0, so that an opcode alone reads as
the command with argument 0 (log entry 25). -/
def tableWordBytes (nbits w : Nat) : List Byte :=
  wordBytes ((nbits + 7) / 8) w ++ [0#8]

/-- The instruction the decoder reads from a table word, under the default parameters. -/
def decodeTableWord (nbits w : Nat) : Option Instr :=
  match decode Config.standard (tableWordBytes nbits w) with
  | .ok (i, _) => some i
  | .error _ => none

end Sys2Proof
end

