-- ==== Sys2Proof/Machine/Commands.lean ====
section
/-! DEFINITION. The meaning of each item (44_commands.md R120 to R122): the net effect of its consumed bytes. `RDY` is
cleared by the `Consume` step around it, not by the command. -/

namespace Sys2Proof.Machine

/-- `D v` (R120): `OUTD <- v[7:0]`, `SEQ <- AwaitingOpcode`, result OK. -/
def execD (arg : Byte) (s : State) : Host.Outcome State Fault Refusal :=
  .next (((s.setOutd (operandD arg)).setSeq .awaitingOpcode).answer (.consume .ok))

/-- `B v` (R121): `OUTB <- v[2:0]`, `SEQ <- AwaitingOpcode`, result OK. -/
def execB (arg : Byte) (s : State) : Host.Outcome State Fault Refusal :=
  .next (((s.setOutb (operandB arg)).setSeq .awaitingOpcode).answer (.consume .ok))

/-- A rejected byte (R122, R113): no state change, result REJECTED. -/
def execRej (_opcode : Byte) (s : State) : Host.Outcome State Fault Refusal :=
  .next (s.answer (.consume .rejected))

end Sys2Proof.Machine
end

