-- ==== Sys2Proof/Machine/Dispatch.lean ====
section
/-! DEFINITION. One arm per item of spec/opcode_table.json. -/

namespace Sys2Proof.Machine

def exec (i : Instr) (s : State) : Host.Outcome State Fault Refusal :=
  match i with
  | .d arg => Sys2Proof.Machine.execD arg s
  | .b arg => Sys2Proof.Machine.execB arg s
  | .rej opcode => Sys2Proof.Machine.execRej opcode s

end Sys2Proof.Machine
end

