-- ==== Sys2Proof/Machine/Consume.lean ====
section
/-! DEFINITION. The Consumer's step and the dispatcher it drives (43_dispatcher.md), and how an item is put before it. -/

namespace Sys2Proof.Machine

/-- Opcode step, recognised (R112): remember the opcode; no effect on the output groups; result OK (R117). -/
def opcodeStep (g : OutputGroup) (s : State) : State :=
  (s.setSeq (.awaitingArgument g)).answer (.consume .ok)

/-- `Dispatch(b)` (R111): the stream decoder says what the byte is; a completed item is executed. -/
def dispatch (cfg : Config) (b : Byte) (s : State) : Host.Outcome State Fault Refusal :=
  match nextItem cfg s.seq b with
  | .opcode g => .next (opcodeStep g s)
  | .item i => exec i s

/-- `Consume` (R110): enabled while `RDY` = 1; reads `BR`, dispatches it, clears `RDY`. With `RDY` = 0 the poll finds
nothing and changes nothing (log entry 3). -/
def consume (cfg : Config) (s : State) : Host.Outcome State Fault Refusal :=
  if s.rdy then
    match dispatch cfg s.br s with
    | .next t => .next (t.setRdy false)
    | .fault r => .fault r
    | .refused r => .refused r
  else .next s

/-- The state in which `Consume` is the next event and the mailbox offers the byte `b`. -/
def State.offer (s : State) (b : Byte) : State :=
  { s with br := b, rdy := true, events := .consume :: s.events }

/-- Put the first item of `bytes` before the Consumer: all its bytes but the last consumed, the last one offered. -/
def placeItem (cfg : Config) (bytes : List Byte) (s : State) : State :=
  match bytes with
  | [] => s
  | first :: rest =>
    match opcodeGroup cfg first with
    | some g => (s.setSeq (.awaitingArgument g)).offer (rest.headD 0#8)
    | none => (s.setSeq .awaitingOpcode).offer first

end Sys2Proof.Machine
end

