-- ==== Sys2Proof/Machine/Transport.lean ====
section
/-! DEFINITION. The bus master's events: select-line gating (40_transport_select.md) and bit shifting with byte completion
(41_transport_shift.md). -/

namespace Sys2Proof.Machine

/-- `SelAssert` (R80). Under `RESYNC_ON_SELECT` it also returns `SEQ` to AwaitingOpcode (R116, policy (b)). -/
def selAssert (cfg : Config) (s : State) : State :=
  let t := ((s.setCnt 0#4).setRdy false).setEn true
  if cfg.resyncOnSelect then t.setSeq .awaitingOpcode else t

/-- `SelDeassert` (R82): `EN <- 0` and nothing else. -/
def selDeassert (s : State) : State := s.setEn false

/-- A shifting half-edge (R92), which is the byte completion when it is the 16th (R93). -/
def shiftHalfEdge (s : State) : State :=
  if s.cnt = 15#4 then s.shift.completeByte else s.shift

/-- `ClkEdge(m)` (R90): not honoured while deselected (R95); else by the parity of `CNT`, sample or shift. -/
def clkEdge (m : Bool) (s : State) : State :=
  if s.en then
    if s.samplesNext then s.sample m else shiftHalfEdge s
  else s

end Sys2Proof.Machine
end

