-- ==== Sys2Proof/Machine/Events.lean ====
section
/-! DEFINITION. One event at a time (00_scope.md R6): which event is next and what each does. -/

namespace Sys2Proof.Machine

/-- The event taken next: the first one scheduled; with none scheduled the Consumer's tight poll runs
(60_exceptions.md R147, R149; log entry 2). -/
def nextEvent (s : State) : Event := s.events.headD .consume

/-- The effect of one event on a state from which it has been taken off the schedule. -/
def perform (cfg : Config) (e : Event) (s : State) : Host.Outcome State Fault Refusal :=
  match e with
  | .reset => .next (resetBlock cfg s)
  | .selAssert => .next (selAssert cfg s)
  | .selDeassert => .next (selDeassert s)
  | .clkEdge m => .next (clkEdge m s)
  | .consume => consume cfg s
  | .isBusy => .next (queryBusy s)
  | .put v => .next (putByte v s)
  | .get => .next (getByte s)

/-- The state with the next event taken off the schedule and no result on the local port yet. -/
def State.advance (s : State) : State := { s with events := s.events.tail, result := none }

/-- Take the next event. -/
def takeEvent (cfg : Config) (s : State) : Host.Outcome State Fault Refusal :=
  perform cfg (nextEvent s) s.advance

end Sys2Proof.Machine
end

