-- ==== Sys2Proof/Machine/Ports.lean ====
section
/-! DEFINITION. The ports (10_state.md R27): the outputs as functions of the state, and the events that transitions of the
input lines issue. -/

namespace Sys2Proof.Machine

/-- `SDO`, three-state (R25): `none` is high impedance, `some level` is driven. -/
def State.sdo (s : State) : Option Bool := if s.en then some (serialOut s.sr) else none

/-- `IND`, logical 1 = on (R26). -/
def State.ind (s : State) : Bool := s.en

/-- Port `OUTD`: the eight pins, driven at all times (R19). -/
def State.portOutd (s : State) : Byte := s.outd

/-- Port `OUTB`: the three pins, driven at all times (R20). -/
def State.portOutb (s : State) : Tribit := s.outb

/-- Port `RDY` (local). -/
def State.portRdy (s : State) : Bool := s.rdy

/-- Port `CONFLICT` (local, diagnostic). -/
def State.portConflict (s : State) : Bool := s.conflict

/-- The levels of the input lines. -/
structure Pins where
  /-- `SEL_N`, active-low. -/
  selN : Bool
  /-- `SCK`. -/
  sck : Bool
  /-- `SDI`. -/
  sdi : Bool
  /-- `RST`. -/
  rst : Bool
deriving DecidableEq, Repr

/-- The names of the input lines. -/
inductive Line where
  | selN
  | sck
  | sdi
  | rst
deriving DecidableEq, Repr

/-- One line taking its new level: the levels afterwards, and the event the transition issues, if any (R27). -/
def moveLine (new : Pins) (l : Line) (cur : Pins) : Pins × List Event :=
  match l with
  | .selN =>
    ({ cur with selN := new.selN },
      if cur.selN && !new.selN then [.selAssert]
      else if !cur.selN && new.selN then [.selDeassert]
      else [])
  | .sck => ({ cur with sck := new.sck }, if cur.sck != new.sck then [.clkEdge cur.sdi] else [])
  | .sdi => ({ cur with sdi := new.sdi }, [])
  | .rst => ({ cur with rst := new.rst }, if !cur.rst && new.rst then [.reset] else [])

/-- The events of lines that change together, serialised in the given order (60_exceptions.md R139: any order). -/
def pinEvents (new : Pins) (order : List Line) (cur : Pins) : List Event :=
  match order with
  | [] => []
  | l :: ls => (moveLine new l cur).2 ++ pinEvents new ls (moveLine new l cur).1

end Sys2Proof.Machine
end

