-- ==== Sys2Proof/Machine/Step.lean ====
section
/-! DEFINITION. The step of the machine. -/

namespace Sys2Proof.Machine

/-- One step of a block built with the given parameters. -/
def stepWith (cfg : Config) (s : State) : Host.Outcome State Fault Refusal := takeEvent cfg s

/-- One step of the block at the spec's default parameters. -/
def step (s : State) : Host.Outcome State Fault Refusal := stepWith Config.standard s

/-- The state in which the very next step runs the item of a table word (log entry 25). -/
def State.withFetchWord (s : State) (nbits w : Nat) : State :=
  placeItem Config.standard (tableWordBytes nbits w) s

end Sys2Proof.Machine
end

