-- ==== Sys2Proof/Machine/Wire.lean ====
section
/-! DEFINITION. What a master puts on the lines: the half-edges that carry a byte (30_encoding.md R60) and the spec's
assembly syntax (R71). -/

namespace Sys2Proof.Machine

/-- The bits of a byte in wire order, most significant first (20_memory.md R42). -/
def wireBits (b : Byte) : List Bool :=
  [b.getLsbD 7, b.getLsbD 6, b.getLsbD 5, b.getLsbD 4, b.getLsbD 3, b.getLsbD 2, b.getLsbD 1, b.getLsbD 0]

/-- The 16 half-edges that carry the byte `b` (R60). The levels at the shifting half-edges, which the block does not look
at, are the bits of `x`. -/
def byteEvents (b x : Byte) : List Event :=
  (List.zip (wireBits b) (wireBits x)).flatMap fun p => [.clkEdge p.1, .clkEdge p.2]

/-- One line of the assembly syntax (R71). -/
inductive AsmLine where
  /-- `D v`. -/
  | d (v : Byte)
  /-- `B v`. -/
  | b (v : Byte)
  /-- `.byte x`: one raw byte. -/
  | byte (x : Byte)
  /-- `SEL`. -/
  | sel
  /-- `DESEL`. -/
  | desel
  /-- `EDGES n, bits`: `n` half-edges carrying the listed data bits. R71 leaves open what they carry past the last listed
  bit: DESIGN CHOICE, the level `asmEvents` is given for them (log entry 34). -/
  | edges (n : Nat) (bits : List Bool)
deriving DecidableEq, Repr

/-- The master's events for one line; `x` gives the levels at the shifting half-edges. `EDGES n, bits` is always `n`
half-edges: the sampling ones carry the listed bits in order, and those past the last listed bit carry bit 0 of `x`
(DESIGN CHOICE: log entry 34); listed bits that `n` half-edges do not reach are not sent. -/
def asmEvents (cfg : Config) (x : Byte) (line : AsmLine) : List Event :=
  match line with
  | .d v => (encode cfg (.d v)).flatMap fun c => byteEvents c x
  | .b v => (encode cfg (.b v)).flatMap fun c => byteEvents c x
  | .byte c => byteEvents c x
  | .sel => [.selAssert]
  | .desel => [.selDeassert]
  | .edges n bits => (List.range n).map fun k =>
    .clkEdge (if k % 2 = 0 then bits.getD (k / 2) (x.getLsbD 0) else x.getLsbD 0)

end Sys2Proof.Machine
end

