-- ==== Sys2Proof/Safety.lean ====
section
/-! DEFINITION. The terms claims about runs are stated in: runs, the wire history a run should agree
with, the host contract of 70_reset_and_hazards.md R178, and the effect a list of consumed bytes should have. None of it is
part of the machine; the history is computed from the events alone. -/

namespace Sys2Proof.Machine

/-- `k` steps of the machine behind the host's interface. -/
def run (k : Nat) (s : State) : Host.Outcome State Fault Refusal := Host.Core.run core k s

/-- The state with exactly these events scheduled. -/
def State.schedule (s : State) (es : List Event) : State := { s with events := es }

/-- The levels at the sampling half-edges, ordinals 1, 3, 5, … (00_scope.md R8). -/
def sampledLevels : List Bool → List Bool
  | [] => []
  | [m] => [m]
  | m :: _ :: rest => m :: sampledLevels rest

/-- The number that bits spell, most significant first. -/
def bitsValue (bits : List Bool) : Nat := bits.foldl (fun n m => 2 * n + m.toNat) 0

/-- The byte that the levels at 16 half-edges spell. -/
def byteOfLevels (levels : List Bool) : Byte := BitVec.ofNat 8 (bitsValue (sampledLevels levels))

/-- What the wire has carried, seen from outside the block. -/
structure History where
  /-- The latest select transition since `Reset` was an assertion. -/
  selected : Bool
  /-- The levels at the half-edges of the byte in flight, in order. -/
  levels : List Bool
  /-- The latest byte whose 16 half-edges all came since the latest `SelAssert`. -/
  latest : Option Byte
  /-- A byte has completed and neither a `Consume` nor a `SelAssert` has come since. -/
  unread : Bool
  /-- Every byte completed since `Reset`, in order. -/
  sent : List Byte
deriving DecidableEq, Repr

/-- Right after `Reset`. -/
def History.initial : History where
  selected := false
  levels := []
  latest := none
  unread := false
  sent := []

/-- The history after one more event. -/
def History.observe (h : History) (e : Event) : History :=
  match e with
  | .reset => History.initial
  | .selAssert => { h with selected := true, levels := [], latest := none, unread := false }
  | .selDeassert => { h with selected := false }
  | .clkEdge m =>
    if h.selected then
      if h.levels.length = 15 then
        { h with
          levels := []
          latest := some (byteOfLevels (h.levels ++ [m]))
          unread := true
          sent := h.sent ++ [byteOfLevels (h.levels ++ [m])] }
      else { h with levels := h.levels ++ [m] }
    else h
  | .consume => { h with unread := false }
  | .isBusy => h
  | .put _ => h
  | .get => h

/-- The history after a list of events. -/
def History.after (h : History) (es : List Event) : History := es.foldl History.observe h

/-- THE INVARIANT (10_state.md R28 item 2, R13, R16): the block agrees with what the wire has carried. In a byte part-way,
the low `CNT / 2` bits of `SR` are the bits sampled and shifted so far, and after a sampling half-edge `DIN` is the level
just sampled. `RDY` is 1 exactly while a completed byte is unread, and the ready byte is the byte of the latest complete run
of 16 half-edges since the latest `SelAssert`. -/
def Agrees (h : History) (s : State) : Prop :=
  s.en = h.selected ∧
  s.cnt.toNat = h.levels.length ∧
  s.sr.toNat % 2 ^ (s.cnt.toNat / 2) = bitsValue ((sampledLevels h.levels).take (s.cnt.toNat / 2)) ∧
  (s.cnt.toNat % 2 = 1 → h.levels.getLast? = some s.din) ∧
  s.rdy = h.unread ∧
  (s.rdy = true → h.latest = some s.br)

/-- Clauses 1 to 4 of the host contract (R178), for one event after the history `h`: a `Consume` between two completions, a
`Consume` before the next `SelAssert`, select transitions that alternate starting with `SelAssert`, whole bytes in every
window; and no further `Reset`. -/
def keepsBytes (h : History) (e : Event) : Bool :=
  match e with
  | .reset => false
  | .selAssert => !h.selected && !h.unread
  | .selDeassert => h.selected && h.levels.isEmpty
  | .clkEdge _ => !(h.selected && h.unread && h.levels.length == 15)
  | .consume => true
  | .isBusy => true
  | .put _ => true
  | .get => true

/-- Clauses 1 to 5: also, at the end of every window the bytes sent so far end on a command boundary. -/
def keepsCommands (h : History) (e : Event) : Bool :=
  keepsBytes h e &&
    (if e = .selDeassert then (decodeStream Config.standard .awaitingOpcode h.sent).2 = .awaitingOpcode else true)

/-- Every event of the list obeys the contract where it stands. -/
def conforms (obeys : History → Event → Bool) (h : History) (es : List Event) : Bool :=
  match es with
  | [] => true
  | e :: rest => obeys h e && conforms obeys (h.observe e) rest

/-- The bytes the Consumer takes during the next `k` steps, in order. -/
def consumedBytes (k : Nat) (s : State) : List Byte :=
  match k with
  | 0 => []
  | k + 1 =>
    (if nextEvent s = .consume ∧ s.rdy = true then [s.br] else []) ++
      match step s with
      | .next t => consumedBytes k t
      | .fault _ => []
      | .refused _ => []

/-- The bytes of the item in hand when the mailbox byte is the next one consumed: a pending opcode, then `BR`. -/
def State.pendingBytes (cfg : Config) (s : State) : List Byte :=
  match s.seq with
  | .awaitingOpcode => [s.br]
  | .awaitingArgument g => [cfg.opcode g, s.br]

/-- Offer each byte in turn to the Consumer and let it take it. -/
def consumeBytes (bs : List Byte) (s : State) : Host.Outcome State Fault Refusal :=
  match bs with
  | [] => .next s
  | b :: rest =>
    match step (s.offer b) with
    | .next t => consumeBytes rest t
    | .fault r => .fault r
    | .refused r => .refused r

/-- The 8-bit group after the items: the argument of the last `D`, else its old value (44_commands.md R123). -/
def finalOutd (items : List Instr) (old : Byte) : Byte :=
  items.foldl (fun v i => match i with | .d arg => arg | .b _ => v | .rej _ => v) old

/-- The 3-bit group after the items: the low 3 bits of the argument of the last `B`, else its old value (R123). -/
def finalOutb (items : List Instr) (old : Tribit) : Tribit :=
  items.foldl (fun v i => match i with | .d _ => v | .b arg => arg.setWidth 3 | .rej _ => v) old

/-- The bytes consumed since Reset, after the step from `s`, if they were `bytes` before it. -/
def consumedSinceReset (bytes : List Byte) (s : State) : List Byte :=
  match nextEvent s with
  | .consume => if s.rdy then bytes ++ [s.br] else bytes
  | .reset => []
  | .selAssert => bytes
  | .selDeassert => bytes
  | .clkEdge _ => bytes
  | .isBusy => bytes
  | .put _ => bytes
  | .get => bytes

/-- The position and the output groups are what these bytes make of the reset values (43_dispatcher.md R111,
44_commands.md R123). -/
def SpelledBy (bytes : List Byte) (s : State) : Prop :=
  s.seq = (decodeStream Config.standard .awaitingOpcode bytes).2 ∧
  s.outd = finalOutd (decodeStream Config.standard .awaitingOpcode bytes).1 Config.standard.outdReset ∧
  s.outb = finalOutb (decodeStream Config.standard .awaitingOpcode bytes).1 Config.standard.outbReset

/-- The parts of two states that reach the serial lines are the same. -/
def SameTransport (s t : State) : Prop :=
  s.sr = t.sr ∧ s.din = t.din ∧ s.cnt = t.cnt ∧ s.en = t.en ∧ s.events = t.events ∧ s.draws = t.draws

/-- A local call or a step of the Consumer: not an event of the master or the platform. -/
def Event.isLocal (e : Event) : Bool :=
  match e with
  | .consume => true
  | .isBusy => true
  | .put _ => true
  | .get => true
  | .reset => false
  | .selAssert => false
  | .selDeassert => false
  | .clkEdge _ => false

end Sys2Proof.Machine
end

