-- ==== Sys2Proof/Certificates/Slice0/Obligations.lean ====
section
/-! DEFINITION. The statements for the provers, file by file of the spec. "DESIGN CHOICE", "decision D<n>" and "log entry"
in a docstring name what a statement rests on beside the source's own words. -/

open Sys2Proof Sys2Proof.Machine

/-! ## Encoding (30_encoding.md) -/

/-- Decoding the bytes of a well-formed item gives the item back and leaves what follows, whatever the two opcode bytes
are as long as they differ. -/
def Obligations.EncodedItemsDecodeBack : Prop :=
  ∀ (cfg : Config) (i : Instr) (rest : List Byte), cfg.wellFormed = true → i.wellFormed cfg = true →
    decode cfg (encode cfg i ++ rest) = .ok (i, rest)

/-- Whatever decodes was the encoding of a well-formed item: each sequence of bytes has one meaning. -/
def Obligations.DecodedBytesReencode : Prop :=
  ∀ (cfg : Config) (bytes rest : List Byte) (i : Instr), decode cfg bytes = .ok (i, rest) →
    i.wellFormed cfg = true ∧ encode cfg i ++ rest = bytes

/-- The length of an item is known from its first byte: 2 for an opcode, 1 otherwise, and decoding succeeds exactly when
that many bytes are there. That fewer bytes answer argumentMissing is how this model reads R69 (DEDUCED: log entry 32). -/
def Obligations.ItemLengthIsKnownFromTheFirstByte : Prop :=
  ∀ (cfg : Config) (first : Byte) (tail : List Byte),
    itemLength cfg first = (if first = cfg.opcD ∨ first = cfg.opcB then 2 else 1) ∧
    (itemLength cfg first ≤ tail.length + 1 →
      ∃ i rest, decode cfg (first :: tail) = .ok (i, rest) ∧ tail.length + 1 = itemLength cfg first + rest.length) ∧
    (tail.length + 1 < itemLength cfg first →
      ∃ g, decode cfg (first :: tail) = .error (.argumentMissing g))

/-- The stream decoder of R69, fed the encodings of well-formed items one after another, emits exactly those items and ends
on a command boundary. -/
def Obligations.StreamDecoderEmitsEncodedItems : Prop :=
  ∀ (cfg : Config) (items : List Instr), cfg.wellFormed = true → (∀ i ∈ items, i.wellFormed cfg = true) →
    decodeStream cfg .awaitingOpcode (items.flatMap (encode cfg)) = (items, .awaitingOpcode)

/-- Every row of the opcode table, under the default opcode bytes (general knowledge G1: log entry 8): the words 0x44aa and
0x42aa for every argument, and every other byte. -/
def Obligations.TableRowsDecode : Prop :=
  (∀ arg : Byte, decodeTableWord 16 (0x4400 + arg.toNat) = some (.d arg)) ∧
  (∀ arg : Byte, decodeTableWord 16 (0x4200 + arg.toNat) = some (.b arg)) ∧
  (∀ x : Byte, x ≠ 0x44#8 → x ≠ 0x42#8 → decodeTableWord 8 x.toNat = some (.rej x))

/-- A few words written out bit by bit, under the default opcode bytes (log entry 8); that an opcode alone answers
argumentMissing is log entry 32 (DEDUCED). -/
def Obligations.WrittenWordsDecode : Prop :=
  decode Config.standard [0b01000100#8, 0b00101010#8] = .ok (.d 0x2A#8, []) ∧
  decode Config.standard [0b01000010#8, 0b11111111#8] = .ok (.b 0xFF#8, []) ∧
  decode Config.standard [0b01010001#8, 0b00000001#8] = .ok (.rej 0x51#8, [0x01#8]) ∧
  decode Config.standard [0b01000100#8] = .error (.argumentMissing .d) ∧
  decodeTableWord 16 0b0100010000101010 = some (.d 0x2A#8)

/-! ## The commands (44_commands.md) and the dispatcher (43_dispatcher.md) -/

/-- `D v`: sets the 8-bit group to the argument, returns to AwaitingOpcode, answers OK (OK is decision D25); nothing else
changes. -/
def Obligations.CommandDCompletes : Prop :=
  ∀ (arg : Byte) (s : State),
    exec (.d arg) s = .next { s with outd := arg, seq := .awaitingOpcode, result := some (.consume .ok) }

/-- `B v`: sets the 3-bit group to `v & 0b00000111`, returns to AwaitingOpcode, answers OK (D25); nothing else changes. -/
def Obligations.CommandBCompletes : Prop :=
  ∀ (arg : Byte) (s : State),
    exec (.b arg) s = .next { s with
      outb := BitVec.ofNat 3 (arg.toNat &&& 0b00000111)
      seq := .awaitingOpcode
      result := some (.consume .ok) }

/-- A rejected byte: answers REJECTED and changes nothing. -/
def Obligations.RejectedByteCompletes : Prop :=
  ∀ (x : Byte) (s : State), exec (.rej x) s = .next { s with result := some (.consume .rejected) }

/-- `D v` over its two Consume steps (R120), from any state awaiting an opcode: after the opcode byte the 8-bit group still
has its old value; after the argument byte it is `v`; each step clears `RDY` and answers OK; no other element changes (`BR`
holds the byte offered). The opcode's number is general knowledge (log entry 8) and OK is decision D25 (log entry 31). -/
def Obligations.CommandDOverTwoConsumes : Prop :=
  ∀ (v : Byte) (s : State), s.seq = .awaitingOpcode →
    encode Config.standard (.d v) = [0x44#8, v] ∧
    ∃ t u, step (s.offer 0x44#8) = .next t ∧ step (t.offer v) = .next u ∧
      t = { s with
        br := 0x44#8
        rdy := false
        seq := .awaitingArgument .d
        result := some (.consume .ok) } ∧
      u = { s with
        br := v
        rdy := false
        outd := v
        seq := .awaitingOpcode
        result := some (.consume .ok) }

/-- `B v` over its two Consume steps: only the low 3 bits of the argument reach the 3-bit group. The group's bits above
bit 2 are outside the block (decision D14: log entry 22); the opcode's number and OK as for `D` (log entries 8 and 31). -/
def Obligations.CommandBOverTwoConsumes : Prop :=
  ∀ (v : Byte) (s : State), s.seq = .awaitingOpcode →
    encode Config.standard (.b v) = [0x42#8, v] ∧
    ∃ t u, step (s.offer 0x42#8) = .next t ∧ step (t.offer v) = .next u ∧
      t = { s with
        br := 0x42#8
        rdy := false
        seq := .awaitingArgument .b
        result := some (.consume .ok) } ∧
      u = { s with
        br := v
        rdy := false
        outb := BitVec.ofNat 3 (v.toNat &&& 0b00000111)
        seq := .awaitingOpcode
        result := some (.consume .ok) }

/-- Any byte but the two opcodes, consumed in AwaitingOpcode (R122): the item is that one byte, the result is REJECTED, no
state changes but the `RDY <- 0` of the step, and the next byte is a new opcode attempt. The opcodes' numbers are general
knowledge (log entry 8), the result's name is decision D15 (log entry 31). -/
def Obligations.RejectedByteIsConsumed : Prop :=
  ∀ (x : Byte) (s : State), s.seq = .awaitingOpcode → x ≠ 0x44#8 → x ≠ 0x42#8 →
    (∀ rest, decode Config.standard (x :: rest) = .ok (.rej x, rest)) ∧
    ∃ t, step (s.offer x) = .next t ∧
      t = { s with br := x, rdy := false, result := some (.consume .rejected) } ∧
      (∀ y, nextItem Config.standard t.seq y = nextItem Config.standard .awaitingOpcode y)

/-- The whole transition table of the dispatcher (R111), over the Consume step that takes the byte `b`. The opcodes' numbers
are general knowledge (log entry 8); OK for the steps that do not fail is decision D25 (log entry 31). -/
def Obligations.DispatchTransitionTable : Prop :=
  ∀ (b : Byte) (s : State),
    (s.seq = .awaitingOpcode → b = 0x44#8 →
      step (s.offer b) = .next { s with
        br := b
        rdy := false
        seq := .awaitingArgument .d
        result := some (.consume .ok) }) ∧
    (s.seq = .awaitingOpcode → b = 0x42#8 →
      step (s.offer b) = .next { s with
        br := b
        rdy := false
        seq := .awaitingArgument .b
        result := some (.consume .ok) }) ∧
    (s.seq = .awaitingOpcode → b ≠ 0x44#8 → b ≠ 0x42#8 →
      step (s.offer b) = .next { s with br := b, rdy := false, result := some (.consume .rejected) }) ∧
    (s.seq = .awaitingArgument .d →
      step (s.offer b) = .next { s with
        br := b
        rdy := false
        outd := b
        seq := .awaitingOpcode
        result := some (.consume .ok) }) ∧
    (s.seq = .awaitingArgument .b →
      step (s.offer b) = .next { s with
        br := b
        rdy := false
        outb := b.extractLsb' 0 3
        seq := .awaitingOpcode
        result := some (.consume .ok) })

/-- A command replaces its group's value whatever the old one was, and issuing it twice in a row leaves the state that
issuing it once leaves. For `D` that is the source's sentence in R50; for `B` it is the spec's inference there ("The same
holds for `B v`", derived from R121). -/
def Obligations.CommandIssuedTwiceIsIssuedOnce : Prop :=
  ∀ (v : Byte) (s : State), s.seq = .awaitingOpcode →
    (∃ t, consumeBytes [Config.standard.opcD, v] s = .next t ∧ t.outd = v ∧
      consumeBytes [Config.standard.opcD, v] t = .next t) ∧
    (∃ t, consumeBytes [Config.standard.opcB, v] s = .next t ∧ t.outb = v.extractLsb' 0 3 ∧
      consumeBytes [Config.standard.opcB, v] t = .next t)

/-- R68. The only don't-care bits of the commands are bits 7:3 of the argument of `B`; an argument is never decoded as an
opcode; the byte after a rejected one always is, and when it is an opcode the byte after it is its argument. -/
def Obligations.OnlyHighArgumentBitsOfBAreIgnored : Prop :=
  (∀ (u v : Byte) (s : State), exec (.b u) s = exec (.b v) s ↔ u.toNat % 8 = v.toNat % 8) ∧
  (∀ (u v : Byte) (s : State), exec (.d u) s = exec (.d v) s ↔ u = v) ∧
  (∀ (cfg : Config) (g : OutputGroup) (b : Byte), nextItem cfg (.awaitingArgument g) b = .item (commandOf g b)) ∧
  (∀ (cfg : Config) (x y : Byte) (rest : List Byte), x ≠ cfg.opcD → x ≠ cfg.opcB →
    decode cfg (x :: y :: rest) = .ok (.rej x, y :: rest)) ∧
  (∀ (cfg : Config) (x arg : Byte) (g : OutputGroup), cfg.wellFormed = true → x ≠ cfg.opcD → x ≠ cfg.opcB →
    decodeStream cfg .awaitingOpcode [x, cfg.opcode g, arg] = ([.rej x, commandOf g arg], .awaitingOpcode))

/-- When the Consumer's turn comes with a ready byte and the pending bytes decode to an item, the step is `exec` of that
item on the state with the event taken off the schedule, and then `RDY` cleared. When the pending byte is an opcode whose
argument is still to come, the step remembers the opcode and answers OK (OK is decision D25: log entry 31; the answer
argumentMissing is log entry 32). That an item runs at the Consume of its last byte is how this model
reads the net effect of a command (log entry 26). -/
def Obligations.StepRunsTheDecodedItem : Prop :=
  ∀ s : State, s.events.headD .consume = .consume → s.rdy = true →
    (∀ i, decode Config.standard (s.pendingBytes Config.standard) = .ok (i, []) →
      ∃ t, exec i { s with events := s.events.tail, result := none } = .next t ∧
        step s = .next { t with rdy := false }) ∧
    (∀ g, decode Config.standard (s.pendingBytes Config.standard) = .error (.argumentMissing g) →
      step s = .next { s with
        events := s.events.tail
        result := some (.consume .ok)
        seq := .awaitingArgument g
        rdy := false })

/-- The step after `withFetchWord` of an item's table word is `exec` of that item, with the Consume around it: `BR` holds
the item's last byte, `RDY` is cleared, and the dispatcher awaits an opcode (log entry 25). -/
def Obligations.FetchWordRunsItsItem : Prop :=
  ∀ (i : Instr) (s : State), i.wellFormed Config.standard = true →
    ∃ t, exec i s = .next t ∧
      step (s.withFetchWord (tableBits i) (tableWord Config.standard i)) = .next { t with
        br := (encode Config.standard i).getLastD 0#8
        rdy := false
        seq := .awaitingOpcode }

/-- A byte that is no opcode, once consumed, leaves the dispatcher awaiting an opcode from whatever position, and changes no
output group if it was awaiting one already (the opcodes' numbers: log entry 8). -/
def Obligations.OneNonOpcodeByteResynchronises : Prop :=
  ∀ (b : Byte) (s : State), b ≠ 0x44#8 → b ≠ 0x42#8 →
    ∃ t, step (s.offer b) = .next t ∧ t.seq = .awaitingOpcode ∧
      (s.seq = .awaitingOpcode → t.outd = s.outd ∧ t.outb = s.outb)

/-! ## Who writes what (10_state.md, 60_exceptions.md section 5) -/

/-- The write rights of the four sides: each event changes only the elements its side may write, and takes itself off the
schedule. That SelAssert does not write `SEQ` is policy (a) (decision D9: log entry 9). -/
def Obligations.EachSideWritesOnlyItsOwnElements : Prop :=
  ∀ s t : State, step s = .next t →
    ((∃ m, nextEvent s = .clkEdge m) ∨ nextEvent s = .selAssert ∨ nextEvent s = .selDeassert →
      t = { s with
        sr := t.sr
        din := t.din
        cnt := t.cnt
        br := t.br
        en := t.en
        rdy := t.rdy
        events := s.events.tail
        result := none }) ∧
    (nextEvent s = .consume →
      t = { s with
        seq := t.seq
        outd := t.outd
        outb := t.outb
        rdy := t.rdy
        events := s.events.tail
        result := t.result }) ∧
    (nextEvent s = .isBusy → t = { s with conflict := t.conflict, events := s.events.tail, result := t.result }) ∧
    ((∃ v, nextEvent s = .put v) →
      t = { s with conflict := t.conflict, sr := t.sr, events := s.events.tail, result := t.result }) ∧
    (nextEvent s = .get → t = { s with events := s.events.tail, result := t.result })

/-- R124. No step changes an output group but a Consume that takes the argument of the group's own command, which writes
that byte, and `Reset`. -/
def Obligations.OutputGroupsChangeOnlyAtTheirArgument : Prop :=
  ∀ s t : State, step s = .next t →
    (t.outd ≠ s.outd →
      (nextEvent s = .consume ∧ s.rdy = true ∧ s.seq = .awaitingArgument .d ∧ t.outd = s.br) ∨ nextEvent s = .reset) ∧
    (t.outb ≠ s.outb →
      (nextEvent s = .consume ∧ s.rdy = true ∧ s.seq = .awaitingArgument .b ∧ t.outb = s.br.extractLsb' 0 3) ∨
        nextEvent s = .reset)

/-- `SEQ` moves only on a consumed byte and at `Reset`; and the dispatcher takes whatever byte it is offered (R115). That
SelAssert does not move it is the default policy (a) (decision D9: log entry 9). -/
def Obligations.SequencePositionMovesOnlyOnAConsumedByte : Prop :=
  (∀ s t : State, step s = .next t → t.seq ≠ s.seq →
    (nextEvent s = .consume ∧ s.rdy = true) ∨ nextEvent s = .reset) ∧
  (∀ (b : Byte) (s : State), ∃ t, step (s.offer b) = .next t ∧ t.rdy = false)

/-- `RDY` is set by byte completion and by nothing else; cleared by Consume, SelAssert and Reset; every other event leaves it
(R15). That the completion is part of the honoured half-edge taken with `CNT` = 15 is decisions D3 and D6 (log entries 12
and 14). -/
def Obligations.ReadyFlagWriters : Prop :=
  ∀ s t : State, step s = .next t →
    ((∃ m, nextEvent s = .clkEdge m) → s.en = true → s.cnt = 15#4 → t.rdy = true) ∧
    ((∃ m, nextEvent s = .clkEdge m) → ¬ (s.en = true ∧ s.cnt = 15#4) → t.rdy = s.rdy) ∧
    (nextEvent s = .consume ∨ nextEvent s = .selAssert ∨ nextEvent s = .reset → t.rdy = false) ∧
    (nextEvent s = .selDeassert ∨ nextEvent s = .get ∨ nextEvent s = .isBusy ∨ (∃ v, nextEvent s = .put v) →
      t.rdy = s.rdy)

/-- `EN` is set by SelAssert and cleared by SelDeassert and Reset; and the data-output drive, the indicator and whether
half-edges are honoured are functions of it (R16). That a half-edge with `EN` = 0 changes nothing is decision D4 (log entry
10); that every honoured one counts is D3 (log entry 12). -/
def Obligations.EnableStateWritersAndEffects : Prop :=
  (∀ s t : State, step s = .next t →
    (nextEvent s = .selAssert → t.en = true) ∧
    (nextEvent s = .selDeassert ∨ nextEvent s = .reset → t.en = false) ∧
    (nextEvent s ≠ .selAssert → nextEvent s ≠ .selDeassert → nextEvent s ≠ .reset → t.en = s.en)) ∧
  (∀ s : State, s.sdo.isSome = s.en ∧ s.ind = s.en) ∧
  (∀ (m : Bool) (s t : State), nextEvent s = .clkEdge m → step s = .next t →
    (s.en = true → t.cnt = s.cnt + 1#4) ∧
    (s.en = false → t = { s with events := s.events.tail, result := none }))

/-- `BR` is written by byte completion alone (and left unspecified by `Reset`: log entry 6), with the shift register as that
half-edge leaves it (completion in one event is decision D6: log entry 14). -/
def Obligations.ByteRegisterWriters : Prop :=
  ∀ s t : State, step s = .next t → nextEvent s ≠ .reset →
    (((∃ m, nextEvent s = .clkEdge m) ∧ s.en = true ∧ s.cnt = 15#4) → t.br = t.sr) ∧
    (¬ ((∃ m, nextEvent s = .clkEdge m) ∧ s.en = true ∧ s.cnt = 15#4) → t.br = s.br)

/-- `SR` moves on an honoured shifting half-edge and on an accepted Put, and nowhere else (Reset leaves it unspecified: log
entry 6). Decisions D3, D5 and D12: log entries 12, 13 and 17; that a half-edge with `EN` = 0 does not move it is D4: log
entry 10. -/
def Obligations.ShiftRegisterWriters : Prop :=
  ∀ s t : State, step s = .next t → nextEvent s ≠ .reset →
    ((∃ m, nextEvent s = .clkEdge m) → s.en = true → s.cnt.toNat % 2 = 1 →
      t.sr.toNat = (2 * s.sr.toNat + s.din.toNat) % 256) ∧
    (∀ v, nextEvent s = .put v → s.cnt = 0#4 → t.sr = v) ∧
    (t.sr ≠ s.sr →
      ((∃ m, nextEvent s = .clkEdge m) ∧ s.en = true ∧ s.cnt.toNat % 2 = 1) ∨
      ((∃ v, nextEvent s = .put v) ∧ s.cnt = 0#4))

/-- `CNT` counts honoured half-edges modulo 16 and is zeroed by SelAssert and Reset; `DIN` takes the data line's level at an
honoured half-edge with `CNT` even. Decisions D3 and D5: log entries 12 and 13. That half-edges with `EN` = 0 leave both is D4
(log entry 10), that Reset makes `CNT` zero is D13 (log entry 7). -/
def Obligations.CounterAndSampleLatchWriters : Prop :=
  ∀ s t : State, step s = .next t →
    ((∃ m, nextEvent s = .clkEdge m) → s.en = true → t.cnt.toNat = (s.cnt.toNat + 1) % 16) ∧
    (nextEvent s = .selAssert ∨ nextEvent s = .reset → t.cnt = 0#4) ∧
    (t.cnt ≠ s.cnt →
      ((∃ m, nextEvent s = .clkEdge m) ∧ s.en = true) ∨ nextEvent s = .selAssert ∨ nextEvent s = .reset) ∧
    (∀ m, nextEvent s = .clkEdge m → s.en = true → s.cnt.toNat % 2 = 0 → t.din = m) ∧
    (t.din ≠ s.din →
      ((∃ m, nextEvent s = .clkEdge m) ∧ s.en = true ∧ s.cnt.toNat % 2 = 0) ∨ nextEvent s = .reset)

/-- `CONFLICT` is the answer of the latest busy query, made by IsBusy or Put; Reset clears it (decision D11: log entry 16). -/
def Obligations.ConflictRecordWriters : Prop :=
  ∀ s t : State, step s = .next t →
    (nextEvent s = .isBusy ∨ (∃ v, nextEvent s = .put v) → (t.conflict = true ↔ s.cnt ≠ 0#4)) ∧
    (nextEvent s = .reset → t.conflict = false) ∧
    (nextEvent s ≠ .isBusy → (∀ v, nextEvent s ≠ .put v) → nextEvent s ≠ .reset → t.conflict = s.conflict)

/-! ## The transport events (40_transport_select.md, 41_transport_shift.md) -/

/-- SelAssert in any state, under either policy (decision D9: log entry 9). -/
def Obligations.SelAssertEffect : Prop :=
  ∀ (cfg : Config) (s : State), nextEvent s = .selAssert →
    stepWith cfg s = .next { s with
      cnt := 0#4
      rdy := false
      en := true
      seq := if cfg.resyncOnSelect then .awaitingOpcode else s.seq
      events := s.events.tail
      result := none }

/-- SelDeassert in any state clears `EN` and writes nothing else; the data-output line floats, the indicator goes off, and
half-edges are no longer honoured (R82). That a half-edge after it changes nothing at all, `SR`, `DIN` and `CNT` included, is
decision D4 (log entry 10). -/
def Obligations.SelDeassertEffect : Prop :=
  ∀ s : State, nextEvent s = .selDeassert →
    ∃ t, step s = .next t ∧ t = { s with en := false, events := s.events.tail, result := none } ∧
      t.sdo = none ∧ t.ind = false ∧
      (∀ m, nextEvent t = .clkEdge m → step t = .next { t with events := t.events.tail, result := none })

/-- The three honoured half-edges: a sample, a shift, and the shift that completes the byte, with everything each leaves
alone. Decisions D3, D5, D6: log entries 12, 13, 14. -/
def Obligations.HonouredHalfEdgeEffect : Prop :=
  ∀ (m : Bool) (s : State), nextEvent s = .clkEdge m → s.en = true →
    (s.cnt.toNat % 2 = 0 →
      step s = .next { s with din := m, cnt := s.cnt + 1#4, events := s.events.tail, result := none }) ∧
    (s.cnt.toNat % 2 = 1 → s.cnt ≠ 15#4 →
      step s = .next { s with
        sr := (s.sr <<< 1) ||| (BitVec.ofBool s.din).setWidth 8
        cnt := s.cnt + 1#4
        events := s.events.tail
        result := none }) ∧
    (s.cnt = 15#4 →
      step s = .next { s with
        sr := (s.sr <<< 1) ||| (BitVec.ofBool s.din).setWidth 8
        br := (s.sr <<< 1) ||| (BitVec.ofBool s.din).setWidth 8
        rdy := true
        cnt := 0#4
        events := s.events.tail
        result := none })

/-- Any number of half-edges while deselected changes nothing (decision D4: log entry 10). -/
def Obligations.DeselectedHalfEdgesChangeNothing : Prop :=
  ∀ (levels : List Bool) (s : State) (rest : List Event), s.en = false →
    s.events = levels.map Event.clkEdge ++ rest →
    ∃ t, run levels.length s = .next t ∧ t = { s with events := rest, result := t.result }

/-- The 16 half-edges of a byte, from the start of a byte while selected: the byte arrives whole, most significant bit
first, in `SR` and `BR` at once, with `RDY` set. Nothing else changes, even if an unconsumed byte was waiting (overrun: it is
overwritten and nothing records the loss). Decisions D3, D5, D6, D7: log entries 12 to 15. -/
def Obligations.ByteArrivesMostSignificantBitFirst : Prop :=
  ∀ (b x : Byte) (s : State) (rest : List Event), s.en = true → s.cnt = 0#4 → s.events = byteEvents b x ++ rest →
    run 16 s = .next { s with
      sr := b
      din := b.getLsbD 0
      cnt := 0#4
      br := b
      rdy := true
      events := rest
      result := none }

/-- During those 16 half-edges the data-output line shows the old contents of `SR`, most significant bit first, each bit
stable over its sampling half-edge; then bit 7 of the byte received. Decision D5: log entry 11. -/
def Obligations.OldShiftRegisterIsShiftedOut : Prop :=
  ∀ (b x : Byte) (s : State) (rest : List Event), s.en = true → s.cnt = 0#4 → s.events = byteEvents b x ++ rest →
    (∀ k, k ≤ 15 → ∃ t, run k s = .next t ∧ t.sdo = some (s.sr.getLsbD (7 - k / 2))) ∧
    (∃ t, run 16 s = .next t ∧ t.sdo = some (b.getLsbD 7))

/-- An item sent over the wire while selected, each byte consumed as it completes, has exactly the effect `exec` gives it on
the output groups, with its result, and leaves the dispatcher awaiting an opcode. Decisions D3, D5, D6: log entries 12 to
14. -/
def Obligations.ItemsSentOverTheWireAreExecuted : Prop :=
  ∀ (i : Instr) (x : Byte) (s : State) (rest : List Event), i.wellFormed Config.standard = true →
    s.en = true → s.cnt = 0#4 → s.seq = .awaitingOpcode →
    s.events = (encode Config.standard i).flatMap (fun b => byteEvents b x ++ [.consume]) ++ rest →
    ∃ t u, exec i s = .next t ∧ run (17 * (encode Config.standard i).length) s = .next u ∧
      u.outd = t.outd ∧ u.outb = t.outb ∧ u.result = t.result ∧ u.seq = .awaitingOpcode ∧
      u.rdy = false ∧ u.cnt = 0#4 ∧ u.en = true ∧ u.conflict = s.conflict ∧ u.events = rest

/-! ## The local operations (42_transport_access.md) -/

/-- IsBusy answers `CNT ≠ 0`, records the answer, and changes nothing else, selected or not (decision D11: log entry 16). -/
def Obligations.IsBusyEffect : Prop :=
  ∀ s : State, nextEvent s = .isBusy →
    step s = .next { s with
      conflict := decide (s.cnt ≠ 0#4)
      events := s.events.tail
      result := some (.isBusy (decide (s.cnt ≠ 0#4))) }

/-- Put stages the byte in `SR` when idle and answers OK; while a byte is in flight it answers TRY_LATER and writes only
`CONFLICT`; it does not look at `EN` (decisions D11, D12: log entries 16 and 17). -/
def Obligations.PutEffect : Prop :=
  ∀ (v : Byte) (s : State), nextEvent s = .put v →
    (s.cnt = 0#4 →
      step s = .next { s with
        sr := v
        conflict := false
        events := s.events.tail
        result := some (.put .ok) }) ∧
    (s.cnt ≠ 0#4 →
      step s = .next { s with
        conflict := true
        events := s.events.tail
        result := some (.put .tryLater) })

/-- R104. Get answers the Byte Register in any state and changes nothing; and the byte that a Consume dispatches is the byte
Get answers. -/
def Obligations.GetEffect : Prop :=
  (∀ s : State, nextEvent s = .get →
    step s = .next { s with events := s.events.tail, result := some (.get s.br) }) ∧
  (∀ s d : State, nextEvent s = .consume → s.rdy = true →
    dispatch Config.standard s.br { s with events := s.events.tail, result := none } = .next d →
    step s = .next { d with rdy := false })

/-- Local calls and Consume steps interleaved anywhere among the half-edges of a byte never disturb it: the byte arrives as
sent. Decisions D3, D5, D6, D12: log entries 12, 13, 14, 17. -/
def Obligations.LocalCallsNeverCorruptAByte : Prop :=
  ∀ (b x : Byte) (s : State) (es : List Event), s.en = true → s.cnt = 0#4 →
    es.filter (fun e => !e.isLocal) = byteEvents b x →
    ∃ t, run es.length (s.schedule es) = .next t ∧ t.br = b ∧ t.cnt = 0#4 ∧ t.en = true

/-! ## Consume and progress -/

/-- With nothing ready the poll changes nothing (log entry 3). -/
def Obligations.PollWithoutAByteChangesNothing : Prop :=
  ∀ s : State, nextEvent s = .consume → s.rdy = false →
    step s = .next { s with events := s.events.tail, result := none }

/-- Consume does not depend on `EN`: a byte that completed before a deselect is applied after it all the same (one event,
decision D7: log entry 15). -/
def Obligations.ConsumeIgnoresTheEnableState : Prop :=
  ∀ (v : Bool) (s : State), nextEvent s = .consume →
    ∃ t, step s = .next t ∧ step { s with en := v } = .next { t with en := v }

/-- Nothing ever blocks, traps or is refused: from every state and under every parameter a step is taken, and it takes one
event off the schedule. -/
def Obligations.NothingEverBlocks : Prop :=
  ∀ (cfg : Config) (s : State), ∃ t, stepWith cfg s = .next t ∧ t.events = s.events.tail

/-- A ready byte is taken unless a SelAssert or a Reset is scheduled: within the length of the schedule the Consumer's turn
comes with `RDY` still 1. That the poll runs when nothing is scheduled is the model's choice (log entry 2). -/
def Obligations.ReadyByteIsEventuallyTaken : Prop :=
  ∀ s : State, s.rdy = true → (∀ e ∈ s.events, e ≠ .selAssert ∧ e ≠ .reset) →
    ∃ k t, k ≤ s.events.length ∧ run k s = .next t ∧ nextEvent t = .consume ∧ t.rdy = true

/-! ## Reset and hazards (70_reset_and_hazards.md) -/

/-- Reset in any state. `CNT`, `CONFLICT`, `OUTD`, `OUTB` are decision D13 (log entry 7); nothing is said of `SR`, `DIN`,
`BR`, which it leaves unspecified (log entry 6). -/
def Obligations.ResetEffect : Prop :=
  ∀ (cfg : Config) (s : State), nextEvent s = .reset →
    ∃ t, stepWith cfg s = .next t ∧ t.seq = .awaitingOpcode ∧ t.en = false ∧ t.rdy = false ∧ t.cnt = 0#4 ∧
      t.conflict = false ∧ t.outd = cfg.outdReset ∧ t.outb = cfg.outbReset ∧ t.sdo = none ∧ t.ind = false ∧
      t.events = s.events.tail ∧ t.result = none

/-- The state after reset at the default parameters. `CNT`, `CONFLICT`, `OUTD`, `OUTB` are decision D13 (log entry 7). -/
def Obligations.ResetStateValues : Prop :=
  State.reset.seq = .awaitingOpcode ∧ State.reset.en = false ∧ State.reset.rdy = false ∧ State.reset.cnt = 0#4 ∧
  State.reset.conflict = false ∧ State.reset.outd = 0x00#8 ∧ State.reset.outb = 0b000#3 ∧
  State.reset.sdo = none ∧ State.reset.ind = false ∧ State.reset.events = []

/-- A byte cut short by a deselect is discarded: mailbox, dispatcher and pins are as before; and the whole byte sent
again in a new window arrives, with the dispatcher where it was (R172). The half-edges of a byte are decisions D3, D5, D6
(log entries 12 to 14); that the new window's SelAssert leaves `SEQ` is policy (a), D9 (log entry 9). -/
def Obligations.ByteCutShortIsDiscarded : Prop :=
  ∀ (levels : List Bool) (s : State) (rest : List Event), s.en = true → s.cnt = 0#4 → levels.length < 16 →
    s.events = levels.map Event.clkEdge ++ .selDeassert :: rest →
    ∃ t, run (levels.length + 1) s = .next t ∧
      t = { s with sr := t.sr, din := t.din, cnt := t.cnt, en := false, events := rest, result := none } ∧
      (∀ (b x : Byte) (rest' : List Event), rest = .selAssert :: (byteEvents b x ++ rest') →
        ∃ u, run 17 t = .next u ∧
          u = { s with
            sr := b
            din := b.getLsbD 0
            cnt := 0#4
            br := b
            rdy := true
            en := true
            events := rest'
            result := none })

/-- After a mid-byte deselect the transport stays busy, whatever happens short of SelAssert and Reset: `IsBusy` answers 1 and
`Put` answers TRY_LATER. That half-edges while deselected are ignored is decision D4, that Put looks at `CNT` alone D12 (log
entries 10 and 17). -/
def Obligations.BusySticksUntilReselect : Prop :=
  ∀ (s : State) (es : List Event), s.en = false → s.cnt ≠ 0#4 → .selAssert ∉ es → .reset ∉ es →
    ∃ t, run es.length (s.schedule es) = .next t ∧ t.cnt = s.cnt ∧ t.sr = s.sr ∧ t.en = false ∧
      (∃ u, step (t.schedule [.isBusy]) = .next u ∧ u.result = some (.isBusy true)) ∧
      (∀ v, ∃ u, step (t.schedule [.put v]) = .next u ∧ u.result = some (.put .tryLater) ∧ u.sr = t.sr)

/-- A re-select drops a byte that was not yet consumed: the Consume after it finds nothing, and the dispatcher and the pins
are as before (policy (a), decision D9: log entry 9). -/
def Obligations.ReselectDropsAnUnconsumedByte : Prop :=
  ∀ (s : State) (rest : List Event), s.rdy = true → s.events = .selAssert :: .consume :: rest →
    run 2 s = .next { s with cnt := 0#4, rdy := false, en := true, events := rest, result := none }

/-- Policy (a) (decision D9: log entry 9): once an opcode is pending, any run without a consumed byte and without Reset, with
any number of select windows, leaves it pending, and the next byte consumed is its argument, with the result OK (decision
D25: log entry 31). -/
def Obligations.PendingOpcodeSurvivesReselection : Prop :=
  ∀ (g : OutputGroup) (s : State) (es : List Event), s.seq = .awaitingArgument g → .reset ∉ es →
    consumedBytes es.length (s.schedule es) = [] →
    ∃ t, run es.length (s.schedule es) = .next t ∧ t.seq = .awaitingArgument g ∧
      t.outd = s.outd ∧ t.outb = s.outb ∧
      (∀ b, ∃ u, step (t.offer b) = .next u ∧ u.seq = .awaitingOpcode ∧ u.result = some (.consume .ok) ∧
        u.outd = (if g = .d then b else s.outd) ∧ u.outb = (if g = .b then b.extractLsb' 0 3 else s.outb))

/-- The policy parameter changes SelAssert and nothing else (decision D9: log entry 9). -/
def Obligations.ResyncPolicyChangesOnlySelAssert : Prop :=
  ∀ (cfg : Config) (p : Bool) (s : State), nextEvent s ≠ .selAssert →
    stepWith { cfg with resyncOnSelect := p } s = stepWith cfg s

/-- The orders that matter when two events come together (decision D16: log entry 18): a 16th half-edge and a deselect, a
completion and the Consume of the byte before, a re-select and a Consume, a first half-edge and a Put. What the orders give
rests on D3 and D5 (what a half-edge does: log entries 12 and 13), D4 (the half-edge after the deselect is ignored: 10), D6
and D7 (completion and Consume are one event each: 14 and 15), D9 (SelAssert leaves `SEQ`: 9) and D12 (Put writes `SR`: 17). -/
def Obligations.BothOrdersOfSimultaneousEvents : Prop :=
  (∀ (m : Bool) (s : State), s.en = true → s.cnt = 15#4 →
    (∃ t, run 2 (s.schedule [.clkEdge m, .selDeassert]) = .next t ∧
      t.rdy = true ∧ t.br = t.sr ∧ t.en = false ∧ t.cnt = 0#4) ∧
    run 2 (s.schedule [.selDeassert, .clkEdge m]) =
      .next { s with en := false, events := [], result := none }) ∧
  (∀ (m : Bool) (s : State), s.en = true → s.cnt = 15#4 → s.rdy = true →
    (∃ t d, run 2 (s.schedule [.consume, .clkEdge m]) = .next t ∧
      dispatch Config.standard s.br s = .next d ∧
      t.rdy = true ∧ t.br = t.sr ∧ t.seq = d.seq ∧ t.outd = d.outd ∧ t.outb = d.outb) ∧
    (∃ t d, run 2 (s.schedule [.clkEdge m, .consume]) = .next t ∧
      dispatch Config.standard t.br s = .next d ∧
      t.rdy = false ∧ t.br = t.sr ∧ t.seq = d.seq ∧ t.outd = d.outd ∧ t.outb = d.outb)) ∧
  (∀ s : State, s.rdy = true →
    (∃ t d, run 2 (s.schedule [.consume, .selAssert]) = .next t ∧
      dispatch Config.standard s.br s = .next d ∧
      t.rdy = false ∧ t.seq = d.seq ∧ t.outd = d.outd ∧ t.outb = d.outb) ∧
    (∃ t, run 2 (s.schedule [.selAssert, .consume]) = .next t ∧
      t.rdy = false ∧ t.seq = s.seq ∧ t.outd = s.outd ∧ t.outb = s.outb)) ∧
  (∀ (m : Bool) (v : Byte) (s : State), s.en = true → s.cnt = 0#4 →
    (∃ t u, step (s.schedule [.put v, .clkEdge m]) = .next t ∧ t.result = some (.put .ok) ∧
      step t = .next u ∧ u.sr = v ∧ u.din = m ∧ u.cnt = 1#4) ∧
    (∃ t, run 2 (s.schedule [.clkEdge m, .put v]) = .next t ∧
      t.result = some (.put .tryLater) ∧ t.sr = s.sr ∧ t.din = m ∧ t.cnt = 1#4))

/-- What transitions of the input lines issue, whatever the order in which lines that move together are taken: SEL_N falling
is one SelAssert, rising one SelDeassert; SCK moving either way is one half-edge with SDI's level, before or after SDI's own
move; RST rising is one Reset; a line that holds its level issues nothing. Port names and RST's edge are the spec's and the
model's choice (decisions D2, D16, D20: log entries 18 and 19). -/
def Obligations.PinTransitionsIssueEvents : Prop :=
  ∀ (old new : Pins) (order : List Line), order.Perm [.selN, .sck, .sdi, .rst] →
    (pinEvents new order old).count .selAssert = (if old.selN && !new.selN then 1 else 0) ∧
    (pinEvents new order old).count .selDeassert = (if !old.selN && new.selN then 1 else 0) ∧
    (pinEvents new order old).count .reset = (if !old.rst && new.rst then 1 else 0) ∧
    (∃ m, (m = old.sdi ∨ m = new.sdi) ∧
      (pinEvents new order old).filter (fun e => e = .clkEdge true ∨ e = .clkEdge false) =
        if old.sck != new.sck then [.clkEdge m] else []) ∧
    (∀ e ∈ pinEvents new order old, e = .selAssert ∨ e = .selDeassert ∨ e = .reset ∨ ∃ m, e = .clkEdge m)

/-! ## Whole-machine claims -/

/-- The invariant holds right after reset. -/
def Obligations.AgreementHoldsAtReset : Prop := Agrees History.initial State.reset

/-- Every step keeps the block in agreement with what the wire has carried: in a byte part-way the bits sampled so far stand
in `SR` and `DIN`, and a ready byte is the byte of the latest complete run of 16 half-edges since the latest SelAssert.
Decisions D3 to D6: log entries 10, 12, 13, 14. -/
def Obligations.StepKeepsAgreementWithTheWire : Prop :=
  ∀ (h : History) (s t : State), Agrees h s → step s = .next t → Agrees (h.observe (nextEvent s)) t

/-- No partial byte is ever exposed: in any run from reset, whatever is scheduled, a byte offered to the Consumer is exactly
the byte spelled by the latest 16 half-edges honoured in one uninterrupted run since the latest SelAssert. Decisions D3 to
D6: log entries 10, 12, 13, 14. -/
def Obligations.NoPartialByteIsExposed : Prop :=
  ∀ (es : List Event) (k : Nat), k ≤ es.length →
    ∃ t, run k (State.reset.schedule es) = .next t ∧
      (t.rdy = true → (History.initial.after (es.take k)).latest = some t.br)

/-- The output groups and the dispatcher's position are a function of the consumed bytes alone: over any run without Reset,
however the events interleave, they are what the items decoded from the consumed bytes make of them (policy (a), decision
D9: log entry 9; one event at a time, D1 and D7: log entries 15 and 18; the opcodes' numbers: log entry 8). -/
def Obligations.OutputsFollowTheConsumedBytes : Prop :=
  ∀ (k : Nat) (s t : State), .reset ∉ s.events.take k → run k s = .next t →
    t.seq = (decodeStream Config.standard s.seq (consumedBytes k s)).2 ∧
    t.outd = finalOutd (decodeStream Config.standard s.seq (consumedBytes k s)).1 s.outd ∧
    t.outb = finalOutb (decodeStream Config.standard s.seq (consumedBytes k s)).1 s.outb

/-- Under clauses 1 to 4 of the host contract every byte sent is consumed exactly once and in order (the last one may still
be in the mailbox), and position and output groups are those of the bytes consumed. The contract is the spec's reading
(decisions D8, D28); the groups' values after reset are D13 (log entry 7); the wire is D3 to D6 (log entries 10, 12 to 14).
Without clause 5 a command may straddle windows, and position and groups then follow the bytes under policy (a) alone
(decision D9: log entry 9). The opcodes' numbers are log entry 8. -/
def Obligations.NoByteIsLostUnderTheHostContract : Prop :=
  ∀ es : List Event, conforms keepsBytes History.initial es = true →
    ∃ t, run es.length (State.reset.schedule es) = .next t ∧
      (t.rdy = false →
        consumedBytes es.length (State.reset.schedule es) = (History.initial.after es).sent ∧
        t.seq = (decodeStream Config.standard .awaitingOpcode (History.initial.after es).sent).2 ∧
        t.outd = finalOutd (decodeStream Config.standard .awaitingOpcode (History.initial.after es).sent).1 0x00#8 ∧
        t.outb = finalOutb (decodeStream Config.standard .awaitingOpcode (History.initial.after es).sent).1 0b000#3) ∧
      (t.rdy = true →
        consumedBytes es.length (State.reset.schedule es) ++ [t.br] = (History.initial.after es).sent)

/-- Under the whole host contract the dispatcher awaits an opcode, with nothing ready, at every SelAssert. The contract is the
spec's reading (decisions D8, D28); the bytes sent are spelled by the wire as D3 to D6 have it (log entries 10, 12 to 14); the
opcodes' numbers are log entry 8. -/
def Obligations.EveryWindowOpensOnACommandBoundary : Prop :=
  ∀ es : List Event, conforms keepsCommands History.initial (es ++ [.selAssert]) = true →
    ∃ t, run es.length (State.reset.schedule (es ++ [.selAssert])) = .next t ∧
      nextEvent t = .selAssert ∧ t.seq = .awaitingOpcode ∧ t.rdy = false

/-- The master cannot find out over the bus whether a command was accepted, rejected or lost: two states that differ only in
mailbox, dispatcher, output groups and diagnostics drive the data-output line and the indicator alike for ever. That the
driven level is SR[7] is decision D5 (log entry 11). -/
def Obligations.MasterCannotObserveTheDispatcher : Prop :=
  ∀ (k : Nat) (s t s' t' : State), SameTransport s t →
    run k s = .next s' → run k t = .next t' → s'.sdo = t'.sdo ∧ s'.ind = t'.ind

/-- The step lemma behind the statement above: two states that agree on the transport still agree after any one event, so
nothing of mailbox, dispatcher, output groups and diagnostics ever reaches the shift register. The transport is decisions D3
to D6 and D12 (log entries 10, 12 to 14, 17); the free values a Reset draws are the same for both (log entry 6). -/
def Obligations.StepKeepsEqualTransports : Prop :=
  ∀ s t s' t' : State, SameTransport s t → step s = .next s' → step t = .next t' → SameTransport s' t'

/-- The position and the output groups are what the bytes consumed since Reset spell: so it is right after reset with no byte
consumed, and every step keeps it, Reset included. Policy (a) is decision D9 (log entry 9), the groups' values after reset are
D13 (log entry 7), one event at a time is D1 and D7 (log entries 15 and 18), the opcodes' numbers are log entry 8. -/
def Obligations.StepKeepsOutputsSpelledByConsumedBytes : Prop :=
  SpelledBy [] State.reset ∧
  ∀ (bytes : List Byte) (s t : State), SpelledBy bytes s → step s = .next t → SpelledBy (consumedSinceReset bytes s) t
end

