-- ==== Sys2Proof/Laws/Decode.lean ====
section
/-! SUPPORT. The small lemmas of the decoder: the opcode map, one turn of the stream decoder, the shape of `decode`. -/

namespace Sys2Proof

theorem opcodeGroup_opcode {cfg : Config} (h : cfg.wellFormed = true) (g : OutputGroup) :
    opcodeGroup cfg (cfg.opcode g) = some g := by
  have hne : cfg.opcD ≠ cfg.opcB := by simpa [Config.wellFormed] using h
  cases g
  · simp [opcodeGroup, Config.opcode]
  · simp [opcodeGroup, Config.opcode, hne.symm]

theorem opcode_of_opcodeGroup {cfg : Config} {b : Byte} {g : OutputGroup} (h : opcodeGroup cfg b = some g) :
    b = cfg.opcode g := by
  unfold opcodeGroup at h
  split at h
  · next hb => cases h; exact hb
  · split at h
    · next hb => cases h; exact hb
    · cases h

theorem opcodeGroup_none_iff {cfg : Config} {b : Byte} :
    opcodeGroup cfg b = none ↔ b ≠ cfg.opcD ∧ b ≠ cfg.opcB := by
  unfold opcodeGroup
  split
  · next hb => simp [hb]
  · next hb => split <;> simp_all

@[simp] theorem decode_nil (cfg : Config) : decode cfg [] = .error .noByte := rfl

theorem decode_rejected {cfg : Config} {b : Byte} (h : opcodeGroup cfg b = none) (rest : List Byte) :
    decode cfg (b :: rest) = .ok (.rej b, rest) := by
  cases rest <;> simp [decode, h]

theorem decode_command {cfg : Config} {b : Byte} {g : OutputGroup} (h : opcodeGroup cfg b = some g) (arg : Byte)
    (rest : List Byte) : decode cfg (b :: arg :: rest) = .ok (commandOf g arg, rest) := by
  simp [decode, h]

theorem decode_cut {cfg : Config} {b : Byte} {g : OutputGroup} (h : opcodeGroup cfg b = some g) :
    decode cfg [b] = .error (.argumentMissing g) := by
  simp [decode, h]

theorem nextItem_recognised {cfg : Config} {b : Byte} {g : OutputGroup} (h : opcodeGroup cfg b = some g) :
    nextItem cfg .awaitingOpcode b = .opcode g := by
  simp [nextItem, h]

theorem nextItem_rejected {cfg : Config} {b : Byte} (h : opcodeGroup cfg b = none) :
    nextItem cfg .awaitingOpcode b = .item (.rej b) := by
  simp [nextItem, h]

@[simp] theorem nextItem_argument (cfg : Config) (g : OutputGroup) (b : Byte) :
    nextItem cfg (.awaitingArgument g) b = .item (commandOf g b) := rfl

/-- Everything one turn of the stream decoder can answer. -/
theorem nextItem_cases (cfg : Config) (pos : SeqPosition) (b : Byte) :
    (∃ g, pos = .awaitingOpcode ∧ opcodeGroup cfg b = some g ∧ nextItem cfg pos b = .opcode g) ∨
    (pos = .awaitingOpcode ∧ opcodeGroup cfg b = none ∧ nextItem cfg pos b = .item (.rej b)) ∨
    (∃ g, pos = .awaitingArgument g ∧ nextItem cfg pos b = .item (commandOf g b)) := by
  cases pos with
  | awaitingOpcode =>
    cases h : opcodeGroup cfg b with
    | none => exact .inr (.inl ⟨rfl, rfl, nextItem_rejected h⟩)
    | some g => exact .inl ⟨g, rfl, rfl, nextItem_recognised h⟩
  | awaitingArgument g => exact .inr (.inr ⟨g, rfl, rfl⟩)

theorem decodeStream_opcode {cfg : Config} {pos : SeqPosition} {b : Byte} {g : OutputGroup}
    (h : nextItem cfg pos b = .opcode g) (bs : List Byte) :
    decodeStream cfg pos (b :: bs) = decodeStream cfg (.awaitingArgument g) bs := by
  simp [decodeStream, h]

theorem decodeStream_item {cfg : Config} {pos : SeqPosition} {b : Byte} {i : Instr}
    (h : nextItem cfg pos b = .item i) (bs : List Byte) :
    decodeStream cfg pos (b :: bs) =
      (i :: (decodeStream cfg .awaitingOpcode bs).1, (decodeStream cfg .awaitingOpcode bs).2) := by
  simp [decodeStream, h]

/-- Decoding a stream in two parts: the second part goes on from the position the first part leaves. -/
theorem decodeStream_append (cfg : Config) (pos : SeqPosition) (bs cs : List Byte) :
    decodeStream cfg pos (bs ++ cs) =
      ((decodeStream cfg pos bs).1 ++ (decodeStream cfg (decodeStream cfg pos bs).2 cs).1,
        (decodeStream cfg (decodeStream cfg pos bs).2 cs).2) := by
  induction bs generalizing pos with
  | nil => rfl
  | cons b bs ih =>
    rw [List.cons_append]
    cases h : nextItem cfg pos b with
    | opcode g => rw [decodeStream_opcode h, decodeStream_opcode h, ih]
    | item i => rw [decodeStream_item h, decodeStream_item h, ih, List.cons_append]

end Sys2Proof
end

