-- ==== Sys2Proof/Laws/State.lean ====
section
/-! SUPPORT. One lemma per field per named update of State: what the update makes of the field. -/

namespace Sys2Proof.Machine

@[simp] theorem setRdy_sr (s : State) (v : Bool) : (s.setRdy v).sr = s.sr := rfl
@[simp] theorem setRdy_din (s : State) (v : Bool) : (s.setRdy v).din = s.din := rfl
@[simp] theorem setRdy_cnt (s : State) (v : Bool) : (s.setRdy v).cnt = s.cnt := rfl
@[simp] theorem setRdy_br (s : State) (v : Bool) : (s.setRdy v).br = s.br := rfl
@[simp] theorem setRdy_rdy (s : State) (v : Bool) : (s.setRdy v).rdy = v := rfl
@[simp] theorem setRdy_en (s : State) (v : Bool) : (s.setRdy v).en = s.en := rfl
@[simp] theorem setRdy_conflict (s : State) (v : Bool) : (s.setRdy v).conflict = s.conflict := rfl
@[simp] theorem setRdy_seq (s : State) (v : Bool) : (s.setRdy v).seq = s.seq := rfl
@[simp] theorem setRdy_outd (s : State) (v : Bool) : (s.setRdy v).outd = s.outd := rfl
@[simp] theorem setRdy_outb (s : State) (v : Bool) : (s.setRdy v).outb = s.outb := rfl
@[simp] theorem setRdy_events (s : State) (v : Bool) : (s.setRdy v).events = s.events := rfl
@[simp] theorem setRdy_result (s : State) (v : Bool) : (s.setRdy v).result = s.result := rfl
@[simp] theorem setRdy_draws (s : State) (v : Bool) : (s.setRdy v).draws = s.draws := rfl

@[simp] theorem setEn_sr (s : State) (v : Bool) : (s.setEn v).sr = s.sr := rfl
@[simp] theorem setEn_din (s : State) (v : Bool) : (s.setEn v).din = s.din := rfl
@[simp] theorem setEn_cnt (s : State) (v : Bool) : (s.setEn v).cnt = s.cnt := rfl
@[simp] theorem setEn_br (s : State) (v : Bool) : (s.setEn v).br = s.br := rfl
@[simp] theorem setEn_rdy (s : State) (v : Bool) : (s.setEn v).rdy = s.rdy := rfl
@[simp] theorem setEn_en (s : State) (v : Bool) : (s.setEn v).en = v := rfl
@[simp] theorem setEn_conflict (s : State) (v : Bool) : (s.setEn v).conflict = s.conflict := rfl
@[simp] theorem setEn_seq (s : State) (v : Bool) : (s.setEn v).seq = s.seq := rfl
@[simp] theorem setEn_outd (s : State) (v : Bool) : (s.setEn v).outd = s.outd := rfl
@[simp] theorem setEn_outb (s : State) (v : Bool) : (s.setEn v).outb = s.outb := rfl
@[simp] theorem setEn_events (s : State) (v : Bool) : (s.setEn v).events = s.events := rfl
@[simp] theorem setEn_result (s : State) (v : Bool) : (s.setEn v).result = s.result := rfl
@[simp] theorem setEn_draws (s : State) (v : Bool) : (s.setEn v).draws = s.draws := rfl

@[simp] theorem recordQuery_sr (s : State) : s.recordQuery.sr = s.sr := rfl
@[simp] theorem recordQuery_din (s : State) : s.recordQuery.din = s.din := rfl
@[simp] theorem recordQuery_cnt (s : State) : s.recordQuery.cnt = s.cnt := rfl
@[simp] theorem recordQuery_br (s : State) : s.recordQuery.br = s.br := rfl
@[simp] theorem recordQuery_rdy (s : State) : s.recordQuery.rdy = s.rdy := rfl
@[simp] theorem recordQuery_en (s : State) : s.recordQuery.en = s.en := rfl
@[simp] theorem recordQuery_conflict (s : State) : s.recordQuery.conflict = s.busy := rfl
@[simp] theorem recordQuery_seq (s : State) : s.recordQuery.seq = s.seq := rfl
@[simp] theorem recordQuery_outd (s : State) : s.recordQuery.outd = s.outd := rfl
@[simp] theorem recordQuery_outb (s : State) : s.recordQuery.outb = s.outb := rfl
@[simp] theorem recordQuery_events (s : State) : s.recordQuery.events = s.events := rfl
@[simp] theorem recordQuery_result (s : State) : s.recordQuery.result = s.result := rfl
@[simp] theorem recordQuery_draws (s : State) : s.recordQuery.draws = s.draws := rfl

@[simp] theorem setSr_sr (s : State) (v : Byte) : (s.setSr v).sr = v := rfl
@[simp] theorem setSr_din (s : State) (v : Byte) : (s.setSr v).din = s.din := rfl
@[simp] theorem setSr_cnt (s : State) (v : Byte) : (s.setSr v).cnt = s.cnt := rfl
@[simp] theorem setSr_br (s : State) (v : Byte) : (s.setSr v).br = s.br := rfl
@[simp] theorem setSr_rdy (s : State) (v : Byte) : (s.setSr v).rdy = s.rdy := rfl
@[simp] theorem setSr_en (s : State) (v : Byte) : (s.setSr v).en = s.en := rfl
@[simp] theorem setSr_conflict (s : State) (v : Byte) : (s.setSr v).conflict = s.conflict := rfl
@[simp] theorem setSr_seq (s : State) (v : Byte) : (s.setSr v).seq = s.seq := rfl
@[simp] theorem setSr_outd (s : State) (v : Byte) : (s.setSr v).outd = s.outd := rfl
@[simp] theorem setSr_outb (s : State) (v : Byte) : (s.setSr v).outb = s.outb := rfl
@[simp] theorem setSr_events (s : State) (v : Byte) : (s.setSr v).events = s.events := rfl
@[simp] theorem setSr_result (s : State) (v : Byte) : (s.setSr v).result = s.result := rfl
@[simp] theorem setSr_draws (s : State) (v : Byte) : (s.setSr v).draws = s.draws := rfl

@[simp] theorem setCnt_sr (s : State) (v : Count) : (s.setCnt v).sr = s.sr := rfl
@[simp] theorem setCnt_din (s : State) (v : Count) : (s.setCnt v).din = s.din := rfl
@[simp] theorem setCnt_cnt (s : State) (v : Count) : (s.setCnt v).cnt = v := rfl
@[simp] theorem setCnt_br (s : State) (v : Count) : (s.setCnt v).br = s.br := rfl
@[simp] theorem setCnt_rdy (s : State) (v : Count) : (s.setCnt v).rdy = s.rdy := rfl
@[simp] theorem setCnt_en (s : State) (v : Count) : (s.setCnt v).en = s.en := rfl
@[simp] theorem setCnt_conflict (s : State) (v : Count) : (s.setCnt v).conflict = s.conflict := rfl
@[simp] theorem setCnt_seq (s : State) (v : Count) : (s.setCnt v).seq = s.seq := rfl
@[simp] theorem setCnt_outd (s : State) (v : Count) : (s.setCnt v).outd = s.outd := rfl
@[simp] theorem setCnt_outb (s : State) (v : Count) : (s.setCnt v).outb = s.outb := rfl
@[simp] theorem setCnt_events (s : State) (v : Count) : (s.setCnt v).events = s.events := rfl
@[simp] theorem setCnt_result (s : State) (v : Count) : (s.setCnt v).result = s.result := rfl
@[simp] theorem setCnt_draws (s : State) (v : Count) : (s.setCnt v).draws = s.draws := rfl

@[simp] theorem setSeq_sr (s : State) (p : SeqPosition) : (s.setSeq p).sr = s.sr := rfl
@[simp] theorem setSeq_din (s : State) (p : SeqPosition) : (s.setSeq p).din = s.din := rfl
@[simp] theorem setSeq_cnt (s : State) (p : SeqPosition) : (s.setSeq p).cnt = s.cnt := rfl
@[simp] theorem setSeq_br (s : State) (p : SeqPosition) : (s.setSeq p).br = s.br := rfl
@[simp] theorem setSeq_rdy (s : State) (p : SeqPosition) : (s.setSeq p).rdy = s.rdy := rfl
@[simp] theorem setSeq_en (s : State) (p : SeqPosition) : (s.setSeq p).en = s.en := rfl
@[simp] theorem setSeq_conflict (s : State) (p : SeqPosition) : (s.setSeq p).conflict = s.conflict := rfl
@[simp] theorem setSeq_seq (s : State) (p : SeqPosition) : (s.setSeq p).seq = p := rfl
@[simp] theorem setSeq_outd (s : State) (p : SeqPosition) : (s.setSeq p).outd = s.outd := rfl
@[simp] theorem setSeq_outb (s : State) (p : SeqPosition) : (s.setSeq p).outb = s.outb := rfl
@[simp] theorem setSeq_events (s : State) (p : SeqPosition) : (s.setSeq p).events = s.events := rfl
@[simp] theorem setSeq_result (s : State) (p : SeqPosition) : (s.setSeq p).result = s.result := rfl
@[simp] theorem setSeq_draws (s : State) (p : SeqPosition) : (s.setSeq p).draws = s.draws := rfl

@[simp] theorem setOutd_sr (s : State) (v : Byte) : (s.setOutd v).sr = s.sr := rfl
@[simp] theorem setOutd_din (s : State) (v : Byte) : (s.setOutd v).din = s.din := rfl
@[simp] theorem setOutd_cnt (s : State) (v : Byte) : (s.setOutd v).cnt = s.cnt := rfl
@[simp] theorem setOutd_br (s : State) (v : Byte) : (s.setOutd v).br = s.br := rfl
@[simp] theorem setOutd_rdy (s : State) (v : Byte) : (s.setOutd v).rdy = s.rdy := rfl
@[simp] theorem setOutd_en (s : State) (v : Byte) : (s.setOutd v).en = s.en := rfl
@[simp] theorem setOutd_conflict (s : State) (v : Byte) : (s.setOutd v).conflict = s.conflict := rfl
@[simp] theorem setOutd_seq (s : State) (v : Byte) : (s.setOutd v).seq = s.seq := rfl
@[simp] theorem setOutd_outd (s : State) (v : Byte) : (s.setOutd v).outd = v := rfl
@[simp] theorem setOutd_outb (s : State) (v : Byte) : (s.setOutd v).outb = s.outb := rfl
@[simp] theorem setOutd_events (s : State) (v : Byte) : (s.setOutd v).events = s.events := rfl
@[simp] theorem setOutd_result (s : State) (v : Byte) : (s.setOutd v).result = s.result := rfl
@[simp] theorem setOutd_draws (s : State) (v : Byte) : (s.setOutd v).draws = s.draws := rfl

@[simp] theorem setOutb_sr (s : State) (v : Tribit) : (s.setOutb v).sr = s.sr := rfl
@[simp] theorem setOutb_din (s : State) (v : Tribit) : (s.setOutb v).din = s.din := rfl
@[simp] theorem setOutb_cnt (s : State) (v : Tribit) : (s.setOutb v).cnt = s.cnt := rfl
@[simp] theorem setOutb_br (s : State) (v : Tribit) : (s.setOutb v).br = s.br := rfl
@[simp] theorem setOutb_rdy (s : State) (v : Tribit) : (s.setOutb v).rdy = s.rdy := rfl
@[simp] theorem setOutb_en (s : State) (v : Tribit) : (s.setOutb v).en = s.en := rfl
@[simp] theorem setOutb_conflict (s : State) (v : Tribit) : (s.setOutb v).conflict = s.conflict := rfl
@[simp] theorem setOutb_seq (s : State) (v : Tribit) : (s.setOutb v).seq = s.seq := rfl
@[simp] theorem setOutb_outd (s : State) (v : Tribit) : (s.setOutb v).outd = s.outd := rfl
@[simp] theorem setOutb_outb (s : State) (v : Tribit) : (s.setOutb v).outb = v := rfl
@[simp] theorem setOutb_events (s : State) (v : Tribit) : (s.setOutb v).events = s.events := rfl
@[simp] theorem setOutb_result (s : State) (v : Tribit) : (s.setOutb v).result = s.result := rfl
@[simp] theorem setOutb_draws (s : State) (v : Tribit) : (s.setOutb v).draws = s.draws := rfl

@[simp] theorem answer_sr (s : State) (r : Result) : (s.answer r).sr = s.sr := rfl
@[simp] theorem answer_din (s : State) (r : Result) : (s.answer r).din = s.din := rfl
@[simp] theorem answer_cnt (s : State) (r : Result) : (s.answer r).cnt = s.cnt := rfl
@[simp] theorem answer_br (s : State) (r : Result) : (s.answer r).br = s.br := rfl
@[simp] theorem answer_rdy (s : State) (r : Result) : (s.answer r).rdy = s.rdy := rfl
@[simp] theorem answer_en (s : State) (r : Result) : (s.answer r).en = s.en := rfl
@[simp] theorem answer_conflict (s : State) (r : Result) : (s.answer r).conflict = s.conflict := rfl
@[simp] theorem answer_seq (s : State) (r : Result) : (s.answer r).seq = s.seq := rfl
@[simp] theorem answer_outd (s : State) (r : Result) : (s.answer r).outd = s.outd := rfl
@[simp] theorem answer_outb (s : State) (r : Result) : (s.answer r).outb = s.outb := rfl
@[simp] theorem answer_events (s : State) (r : Result) : (s.answer r).events = s.events := rfl
@[simp] theorem answer_result (s : State) (r : Result) : (s.answer r).result = some r := rfl
@[simp] theorem answer_draws (s : State) (r : Result) : (s.answer r).draws = s.draws := rfl

@[simp] theorem sample_sr (s : State) (m : Bool) : (s.sample m).sr = s.sr := rfl
@[simp] theorem sample_din (s : State) (m : Bool) : (s.sample m).din = m := rfl
@[simp] theorem sample_cnt (s : State) (m : Bool) : (s.sample m).cnt = s.cnt + 1#4 := rfl
@[simp] theorem sample_br (s : State) (m : Bool) : (s.sample m).br = s.br := rfl
@[simp] theorem sample_rdy (s : State) (m : Bool) : (s.sample m).rdy = s.rdy := rfl
@[simp] theorem sample_en (s : State) (m : Bool) : (s.sample m).en = s.en := rfl
@[simp] theorem sample_conflict (s : State) (m : Bool) : (s.sample m).conflict = s.conflict := rfl
@[simp] theorem sample_seq (s : State) (m : Bool) : (s.sample m).seq = s.seq := rfl
@[simp] theorem sample_outd (s : State) (m : Bool) : (s.sample m).outd = s.outd := rfl
@[simp] theorem sample_outb (s : State) (m : Bool) : (s.sample m).outb = s.outb := rfl
@[simp] theorem sample_events (s : State) (m : Bool) : (s.sample m).events = s.events := rfl
@[simp] theorem sample_result (s : State) (m : Bool) : (s.sample m).result = s.result := rfl
@[simp] theorem sample_draws (s : State) (m : Bool) : (s.sample m).draws = s.draws := rfl

@[simp] theorem shift_sr (s : State) : s.shift.sr = shiftIn s.sr s.din := rfl
@[simp] theorem shift_din (s : State) : s.shift.din = s.din := rfl
@[simp] theorem shift_cnt (s : State) : s.shift.cnt = s.cnt + 1#4 := rfl
@[simp] theorem shift_br (s : State) : s.shift.br = s.br := rfl
@[simp] theorem shift_rdy (s : State) : s.shift.rdy = s.rdy := rfl
@[simp] theorem shift_en (s : State) : s.shift.en = s.en := rfl
@[simp] theorem shift_conflict (s : State) : s.shift.conflict = s.conflict := rfl
@[simp] theorem shift_seq (s : State) : s.shift.seq = s.seq := rfl
@[simp] theorem shift_outd (s : State) : s.shift.outd = s.outd := rfl
@[simp] theorem shift_outb (s : State) : s.shift.outb = s.outb := rfl
@[simp] theorem shift_events (s : State) : s.shift.events = s.events := rfl
@[simp] theorem shift_result (s : State) : s.shift.result = s.result := rfl
@[simp] theorem shift_draws (s : State) : s.shift.draws = s.draws := rfl

@[simp] theorem completeByte_sr (s : State) : s.completeByte.sr = s.sr := rfl
@[simp] theorem completeByte_din (s : State) : s.completeByte.din = s.din := rfl
@[simp] theorem completeByte_cnt (s : State) : s.completeByte.cnt = s.cnt := rfl
@[simp] theorem completeByte_br (s : State) : s.completeByte.br = s.sr := rfl
@[simp] theorem completeByte_rdy (s : State) : s.completeByte.rdy = true := rfl
@[simp] theorem completeByte_en (s : State) : s.completeByte.en = s.en := rfl
@[simp] theorem completeByte_conflict (s : State) : s.completeByte.conflict = s.conflict := rfl
@[simp] theorem completeByte_seq (s : State) : s.completeByte.seq = s.seq := rfl
@[simp] theorem completeByte_outd (s : State) : s.completeByte.outd = s.outd := rfl
@[simp] theorem completeByte_outb (s : State) : s.completeByte.outb = s.outb := rfl
@[simp] theorem completeByte_events (s : State) : s.completeByte.events = s.events := rfl
@[simp] theorem completeByte_result (s : State) : s.completeByte.result = s.result := rfl
@[simp] theorem completeByte_draws (s : State) : s.completeByte.draws = s.draws := rfl

@[simp] theorem advance_sr (s : State) : s.advance.sr = s.sr := rfl
@[simp] theorem advance_din (s : State) : s.advance.din = s.din := rfl
@[simp] theorem advance_cnt (s : State) : s.advance.cnt = s.cnt := rfl
@[simp] theorem advance_br (s : State) : s.advance.br = s.br := rfl
@[simp] theorem advance_rdy (s : State) : s.advance.rdy = s.rdy := rfl
@[simp] theorem advance_en (s : State) : s.advance.en = s.en := rfl
@[simp] theorem advance_conflict (s : State) : s.advance.conflict = s.conflict := rfl
@[simp] theorem advance_seq (s : State) : s.advance.seq = s.seq := rfl
@[simp] theorem advance_outd (s : State) : s.advance.outd = s.outd := rfl
@[simp] theorem advance_outb (s : State) : s.advance.outb = s.outb := rfl
@[simp] theorem advance_events (s : State) : s.advance.events = s.events.tail := rfl
@[simp] theorem advance_result (s : State) : s.advance.result = none := rfl
@[simp] theorem advance_draws (s : State) : s.advance.draws = s.draws := rfl

@[simp] theorem offer_sr (s : State) (b : Byte) : (s.offer b).sr = s.sr := rfl
@[simp] theorem offer_din (s : State) (b : Byte) : (s.offer b).din = s.din := rfl
@[simp] theorem offer_cnt (s : State) (b : Byte) : (s.offer b).cnt = s.cnt := rfl
@[simp] theorem offer_br (s : State) (b : Byte) : (s.offer b).br = b := rfl
@[simp] theorem offer_rdy (s : State) (b : Byte) : (s.offer b).rdy = true := rfl
@[simp] theorem offer_en (s : State) (b : Byte) : (s.offer b).en = s.en := rfl
@[simp] theorem offer_conflict (s : State) (b : Byte) : (s.offer b).conflict = s.conflict := rfl
@[simp] theorem offer_seq (s : State) (b : Byte) : (s.offer b).seq = s.seq := rfl
@[simp] theorem offer_outd (s : State) (b : Byte) : (s.offer b).outd = s.outd := rfl
@[simp] theorem offer_outb (s : State) (b : Byte) : (s.offer b).outb = s.outb := rfl
@[simp] theorem offer_events (s : State) (b : Byte) : (s.offer b).events = .consume :: s.events := rfl
@[simp] theorem offer_result (s : State) (b : Byte) : (s.offer b).result = s.result := rfl
@[simp] theorem offer_draws (s : State) (b : Byte) : (s.offer b).draws = s.draws := rfl

end Sys2Proof.Machine
end

