-- ==== Sys2Proof/Laws/Ops.lean ====
section
/-! SUPPORT. One lemma per shared operation that says once everything it can do: the operand forms, the shift, each event,
the dispatcher, and `Consume`. -/

namespace Sys2Proof.Machine

theorem operandB_toNat (arg : Byte) : (operandB arg).toNat = arg.toNat % 8 := by
  simp [operandB, argMaskB, BitVec.extractLsb'_toNat, BitVec.toNat_and]
  rw [show (7 : Nat) = 2 ^ 3 - 1 from rfl, Nat.and_two_pow_sub_one_eq_mod]
  omega

theorem operandB_eq_setWidth (arg : Byte) : operandB arg = arg.setWidth 3 := by
  apply BitVec.eq_of_toNat_eq
  simp [operandB_toNat]

theorem operandB_eq_slice (arg : Byte) : operandB arg = arg.extractLsb' 0 3 := by
  apply BitVec.eq_of_toNat_eq
  simp [operandB_toNat]

theorem shiftIn_toNat (sr : Byte) (din : Bool) : (shiftIn sr din).toNat = 2 * (sr.toNat % 128) + din.toNat := by
  simp [shiftIn, BitVec.toNat_concat, BitVec.extractLsb'_toNat]
  omega

theorem busy_iff (s : State) : s.busy = true ↔ s.cnt ≠ 0#4 := by
  simp [State.busy]

theorem samplesNext_iff (s : State) : s.samplesNext = true ↔ s.cnt.toNat % 2 = 0 := by
  simp [State.samplesNext, BitVec.getLsbD, Nat.testBit_zero]

/-- Everything `SelAssert` does (R80). -/
theorem selAssert_eq (cfg : Config) (s : State) :
    selAssert cfg s =
      { s with
        cnt := 0#4
        rdy := false
        en := true
        seq := if cfg.resyncOnSelect then .awaitingOpcode else s.seq } := by
  unfold selAssert
  split <;> simp_all [State.setCnt, State.setRdy, State.setEn, State.setSeq]

/-- Everything `ClkEdge` can do (R90): nothing, a sample, a shift, or a shift that completes a byte. -/
theorem clkEdge_cases (m : Bool) (s : State) :
    (s.en = false ∧ clkEdge m s = s) ∨
    (s.en = true ∧ s.cnt.toNat % 2 = 0 ∧ clkEdge m s = s.sample m) ∨
    (s.en = true ∧ s.cnt.toNat % 2 = 1 ∧ s.cnt ≠ 15#4 ∧ clkEdge m s = s.shift) ∨
    (s.en = true ∧ s.cnt = 15#4 ∧ clkEdge m s = s.shift.completeByte) := by
  by_cases hen : s.en = true
  · by_cases hs : s.samplesNext = true
    · exact .inr (.inl ⟨hen, (samplesNext_iff s).1 hs, by simp [clkEdge, hen, hs]⟩)
    · have hodd : s.cnt.toNat % 2 = 1 := by
        have := mt (samplesNext_iff s).2 hs
        omega
      by_cases h15 : s.cnt = 15#4
      · exact .inr (.inr (.inr ⟨hen, h15, by simp [clkEdge, hen, hs, shiftHalfEdge, h15]⟩))
      · exact .inr (.inr (.inl ⟨hen, hodd, h15, by simp [clkEdge, hen, hs, shiftHalfEdge, h15]⟩))
  · have hf : s.en = false := by simpa using hen
    exact .inl ⟨hf, by simp [clkEdge, hf]⟩

/-- Everything `Put` can do (R102). -/
theorem putByte_cases (v : Byte) (s : State) :
    (s.cnt ≠ 0#4 ∧ putByte v s = s.recordQuery.answer (.put .tryLater)) ∨
    (s.cnt = 0#4 ∧ putByte v s = (s.recordQuery.setSr v).answer (.put .ok)) := by
  by_cases h : s.busy = true
  · exact .inl ⟨(busy_iff s).1 h, by simp [putByte, h]⟩
  · exact .inr ⟨by simpa [busy_iff] using h, by simp [putByte, h]⟩

/-- Everything `Dispatch` can do: one of the five rows of the transition table (R111). -/
theorem dispatch_cases (cfg : Config) (b : Byte) (s : State) :
    (∃ g, s.seq = .awaitingOpcode ∧ opcodeGroup cfg b = some g ∧ dispatch cfg b s = .next (opcodeStep g s)) ∨
    (s.seq = .awaitingOpcode ∧ opcodeGroup cfg b = none ∧
      dispatch cfg b s = .next (s.answer (.consume .rejected))) ∨
    (s.seq = .awaitingArgument .d ∧
      dispatch cfg b s = .next (((s.setOutd b).setSeq .awaitingOpcode).answer (.consume .ok))) ∨
    (s.seq = .awaitingArgument .b ∧
      dispatch cfg b s = .next (((s.setOutb (operandB b)).setSeq .awaitingOpcode).answer (.consume .ok))) := by
  rcases nextItem_cases cfg s.seq b with ⟨g, hs, hg, hn⟩ | ⟨hs, hg, hn⟩ | ⟨g, hs, hn⟩
  · exact .inl ⟨g, hs, hg, by simp [dispatch, hn]⟩
  · exact .inr (.inl ⟨hs, hg, by simp [dispatch, hn, exec, execRej]⟩)
  · cases g
    · exact .inr (.inr (.inl ⟨hs, by simp [dispatch, hn, commandOf, exec, execD, operandD]⟩))
    · exact .inr (.inr (.inr ⟨hs, by simp [dispatch, hn, commandOf, exec, execB]⟩))

/-- `Consume` with nothing to take changes nothing (R110). -/
theorem consume_notReady (cfg : Config) {s : State} (h : s.rdy = false) : consume cfg s = .next s := by
  simp [consume, h]

/-- `Consume` with a ready byte is its dispatch, with `RDY` cleared afterwards (R110). -/
theorem consume_ready {cfg : Config} {s t : State} (h : s.rdy = true) (hd : dispatch cfg s.br s = .next t) :
    consume cfg s = .next (t.setRdy false) := by
  simp [consume, h, hd]

/-- Everything `Consume` can do (R110): nothing, an opcode step, a rejection, or the argument step of either command. -/
theorem consume_cases (cfg : Config) (s : State) :
    (s.rdy = false ∧ consume cfg s = .next s) ∨
    (∃ g, s.rdy = true ∧ s.seq = .awaitingOpcode ∧ opcodeGroup cfg s.br = some g ∧
      consume cfg s = .next ((opcodeStep g s).setRdy false)) ∨
    (s.rdy = true ∧ s.seq = .awaitingOpcode ∧ opcodeGroup cfg s.br = none ∧
      consume cfg s = .next ((s.answer (.consume .rejected)).setRdy false)) ∨
    (s.rdy = true ∧ s.seq = .awaitingArgument .d ∧
      consume cfg s = .next ((((s.setOutd s.br).setSeq .awaitingOpcode).answer (.consume .ok)).setRdy false)) ∨
    (s.rdy = true ∧ s.seq = .awaitingArgument .b ∧
      consume cfg s =
        .next ((((s.setOutb (operandB s.br)).setSeq .awaitingOpcode).answer (.consume .ok)).setRdy false)) := by
  cases h : s.rdy with
  | false => exact .inl ⟨rfl, consume_notReady cfg h⟩
  | true =>
    rcases dispatch_cases cfg s.br s with ⟨g, hs, hg, hd⟩ | ⟨hs, hg, hd⟩ | ⟨hs, hd⟩ | ⟨hs, hd⟩
    · exact .inr (.inl ⟨g, rfl, hs, hg, consume_ready h hd⟩)
    · exact .inr (.inr (.inl ⟨rfl, hs, hg, consume_ready h hd⟩))
    · exact .inr (.inr (.inr (.inl ⟨rfl, hs, consume_ready h hd⟩)))
    · exact .inr (.inr (.inr (.inr ⟨rfl, hs, consume_ready h hd⟩)))

@[simp] theorem opcodeStep_eq (g : OutputGroup) (s : State) :
    opcodeStep g s = (s.setSeq (.awaitingArgument g)).answer (.consume .ok) := rfl

theorem step_eq (s : State) : step s = perform Config.standard (nextEvent s) s.advance := rfl

theorem nextEvent_cons {s : State} {e : Event} {es : List Event} (h : s.events = e :: es) : nextEvent s = e := by
  simp [nextEvent, h]

end Sys2Proof.Machine
end

