-- ==== Sys2Proof/Laws/PerInstr.lean ====
section
/-! SUPPORT. Statements made per instruction. -/

namespace Sys2Proof.Laws.EncodedLength

/-- An encoded well-formed item has the length that its first byte alone announces (30_encoding.md R69). -/
def Statement (i : Instr) : Prop :=
  ∀ cfg : Config, cfg.wellFormed = true → i.wellFormed cfg = true →
    ∃ first rest, encode cfg i = first :: rest ∧ (encode cfg i).length = itemLength cfg first

theorem d (arg : Byte) : Statement (.d arg) := fun cfg hcfg _ =>
  ⟨cfg.opcD, [arg], rfl, by
    have h := opcodeGroup_opcode hcfg .d
    simp [encode, itemLength, Config.opcode] at h ⊢
    simp [h]⟩

theorem b (arg : Byte) : Statement (.b arg) := fun cfg hcfg _ =>
  ⟨cfg.opcB, [arg], rfl, by
    have h := opcodeGroup_opcode hcfg .b
    simp [encode, itemLength, Config.opcode] at h ⊢
    simp [h]⟩

theorem rej (opcode : Byte) : Statement (.rej opcode) := fun cfg _ hi =>
  ⟨opcode, [], rfl, by
    have h : opcodeGroup cfg opcode = none := opcodeGroup_none_iff.2 (by simpa [Instr.wellFormed] using hi)
    simp [encode, itemLength, h]⟩

end Sys2Proof.Laws.EncodedLength
end

