-- ==== Sys2Proof/Laws/Run.lean ====
section
/-! SUPPORT. Runs of the machine: how a run begins, how runs join, and what one scheduled event does. -/

namespace Sys2Proof.Machine

theorem run_zero (s : State) : run 0 s = .next s := rfl

theorem run_succ_eq (k : Nat) (s : State) :
    run (k + 1) s =
      match step s with
      | .next t => run k t
      | .fault r => .fault r
      | .refused r => .refused r := by
  cases h : step s <;>
    (have hc : core.step s = _ := h
     simp only [run, Host.Core.run, hc]
     rfl)

theorem run_succ {s t : State} (h : step s = .next t) (k : Nat) : run (k + 1) s = run k t := by
  simp [run_succ_eq, h]

/-- A run of one more step, read from its end result. -/
theorem run_succ_inv {s u : State} {k : Nat} (h : run (k + 1) s = .next u) :
    ∃ t, step s = .next t ∧ run k t = .next u := by
  rw [run_succ_eq] at h
  split at h
  · next t ht => exact ⟨t, ht, h⟩
  · cases h
  · cases h

theorem run_one (s : State) : run 1 s = step s := by
  rw [run_succ_eq]
  cases step s <;> rfl

/-- Two runs one after the other are one run. -/
theorem run_add {s t : State} {j : Nat} (h : run j s = .next t) (k : Nat) :
    run (j + k) s = run k t := by
  induction j generalizing s with
  | zero => cases h; simp
  | succ j ih =>
    obtain ⟨u, hu, hr⟩ := run_succ_inv h
    rw [show j + 1 + k = (j + k) + 1 by omega, run_succ hu, ih hr]

/-- A step whose next event stands at the head of the schedule. -/
theorem step_cons {s : State} {e : Event} {es : List Event} (h : s.events = e :: es) :
    step s = perform Config.standard e { s with events := es, result := none } := by
  rw [step_eq, nextEvent_cons h]
  simp [State.advance, h]

@[simp] theorem schedule_events (s : State) (es : List Event) : (s.schedule es).events = es := rfl
@[simp] theorem schedule_schedule (s : State) (es es' : List Event) :
    (s.schedule es).schedule es' = s.schedule es' := rfl

theorem after_cons (h : History) (e : Event) (es : List Event) : h.after (e :: es) = (h.observe e).after es := rfl

@[simp] theorem after_nil (h : History) : h.after [] = h := rfl

theorem finalOutd_append (is js : List Instr) (v : Byte) : finalOutd (is ++ js) v = finalOutd js (finalOutd is v) :=
  List.foldl_append

theorem finalOutb_append (is js : List Instr) (v : Tribit) : finalOutb (is ++ js) v = finalOutb js (finalOutb is v) :=
  List.foldl_append

end Sys2Proof.Machine
end

