-- ==== Sys2Proof/Tests/Slice0.lean ====
section
/-! SUPPORT. The model's own tests: expected results are the spec's worked examples and vectors (95_test_vectors.md, named
S…, V… in the comments) or words written out from its encodings; and for every statement with hypotheses a witness that
meets them. -/

namespace Sys2Proof.Tests

open Sys2Proof Sys2Proof.Machine

/-- The next state of an outcome. -/
def nextOf (o : Host.Outcome State Fault Refusal) : Option State :=
  match o with
  | .next s => some s
  | .fault _ => none
  | .refused _ => none

/-- The item of a decoding, with the bytes left over. -/
def decoded (bytes : List Byte) : Option (Instr × List Byte) := (decode Config.standard bytes).toOption

/-- A state in the middle of things, for the vectors: OUTD = 0x12, OUTB = 0b101 (section 2.4). -/
def mid : State := { State.reset with outd := 0x12#8, outb := 0b101#3, br := 0x44#8 }

/-- Selected, with a byte in flight. -/
def busyState (cnt : Count) (sr : Byte) (din : Bool) : State := { mid with en := true, cnt := cnt, sr := sr, din := din }

/-! ## Well-formedness: one ill-formed term per check -/

theorem smoke_rejected_d_opcode : (Instr.rej 0x44#8).wellFormed Config.standard = false := by decide
theorem smoke_rejected_b_opcode : (Instr.rej 0x42#8).wellFormed Config.standard = false := by decide
theorem smoke_rejected_other : (Instr.rej 0x43#8).wellFormed Config.standard = true := by decide
theorem smoke_equal_opcodes : ({ opcB := 0x44#8 } : Config).wellFormed = false := by decide
theorem smoke_standard_config : Config.standard.wellFormed = true := by decide

/-! ## Decoding: words written out from 30_encoding.md R63, R64 and the programs P1, P3 -/

theorem test_decode_d : decoded [0b01000100#8, 0b00101010#8] = some (.d 0x2A#8, []) := by decide
theorem test_decode_b : decoded [0b01000010#8, 0b11111111#8] = some (.b 0xFF#8, []) := by decide
theorem test_decode_rej : decoded [0b01010001#8, 0b00000001#8] = some (.rej 0x51#8, [0x01#8]) := by decide
theorem test_decode_lower_case : decoded [0x64#8] = some (.rej 0x64#8, []) := by decide
theorem test_table_d : decodeTableWord 16 0x442A = some (.d 0x2A#8) := by decide
theorem test_table_b : decodeTableWord 16 0x42FF = some (.b 0xFF#8) := by decide
theorem test_table_rej : decodeTableWord 8 0x51 = some (.rej 0x51#8) := by decide
/-- P1's bytes. -/
theorem test_stream_p1 :
    decodeStream Config.standard .awaitingOpcode [0x44#8, 0x2A#8, 0x42#8, 0xFF#8, 0x51#8, 0x01#8] =
      ([.d 0x2A#8, .b 0xFF#8, .rej 0x51#8, .rej 0x01#8], .awaitingOpcode) := by decide
/-- V44: a rejected byte, then an opcode. -/
theorem test_stream_v44 :
    decodeStream Config.standard .awaitingOpcode [0x51#8, 0x44#8, 0x10#8] =
      ([.rej 0x51#8, .d 0x10#8], .awaitingOpcode) := by decide
/-- The codes of `SEQ` (R18): `01` is no position's code. -/
theorem test_seq_code : seqCode .awaitingOpcode = 0b00#2 ∧ seqCode (.awaitingArgument .d) = 0b10#2 ∧
    seqCode (.awaitingArgument .b) = 0b11#2 := by decide
/-- P4's `EDGES 10, 1 0 1 0 1` is ten half-edges, the odd ones carrying the bits. -/
theorem test_asm_edges : asmEvents Config.standard 0x00#8 (.edges 10 [true, false, true, false, true]) =
    [.clkEdge true, .clkEdge false, .clkEdge false, .clkEdge false, .clkEdge true, .clkEdge false, .clkEdge false,
      .clkEdge false, .clkEdge true, .clkEdge false] := by decide

/-- `EDGES 5, 0` is five half-edges all the same; the levels past the listed bit are bit 0 of the argument (log entry 34). -/
theorem test_asm_edges_short : asmEvents Config.standard 0x01#8 (.edges 5 [false]) =
    [.clkEdge false, .clkEdge true, .clkEdge true, .clkEdge true, .clkEdge true] := by decide

/-! ## Commands, one step each -/

/-- V43. -/
theorem test_exec_d : nextOf (step ({ mid with seq := .awaitingArgument .d }.offer 0x2A#8)) =
    some { mid with br := 0x2A#8, outd := 0x2A#8, result := some (.consume .ok) } := by decide
/-- V43a: an argument equal to an opcode is data. -/
theorem test_exec_d_opcode_as_data :
    (nextOf (step ({ mid with seq := .awaitingArgument .d }.offer 0x44#8))).map (·.outd) = some 0x44#8 := by decide
/-- V43f: 0xF8 gives 0b000. -/
theorem test_exec_b_high_bits :
    (nextOf (step ({ mid with seq := .awaitingArgument .b }.offer 0xF8#8))).map (·.outb) = some 0b000#3 := by decide
/-- V43i: 0xAD gives 0b101. -/
theorem test_exec_b : nextOf (step ({ mid with outb := 0b000#3, seq := .awaitingArgument .b }.offer 0xAD#8)) =
    some { mid with br := 0xAD#8, outb := 0b101#3, result := some (.consume .ok) } := by decide
/-- V42. -/
theorem test_exec_rej : nextOf (step (mid.offer 0x51#8)) =
    some { mid with br := 0x51#8, result := some (.consume .rejected) } := by decide
/-- V42b: lower-case `d`. -/
theorem test_exec_rej_lower_case :
    (nextOf (step (mid.offer 0x64#8))).map (·.result) = some (some (.consume .rejected)) := by decide
/-- V40. -/
theorem test_opcode_d : nextOf (step (mid.offer 0x44#8)) =
    some { mid with seq := .awaitingArgument .d, result := some (.consume .ok) } := by decide
/-- V41. -/
theorem test_opcode_b : (nextOf (step (mid.offer 0x42#8))).map (·.seq) = some (.awaitingArgument .b) := by decide
/-- The first step after reset, for each row of the table. -/
theorem test_fetch_d : (nextOf (step (State.reset.withFetchWord 16 0x442A))).map (·.outd) = some 0x2A#8 := by decide
theorem test_fetch_b : (nextOf (step (State.reset.withFetchWord 16 0x42FF))).map (·.outb) = some 0b111#3 := by decide
theorem test_fetch_rej : (nextOf (step (State.reset.withFetchWord 8 0x51))).map (·.result) =
    some (some (.consume .rejected)) := by decide

/-! ## Events, one step each -/

/-- The worked example of R80, and V5. -/
theorem test_sel_assert :
    nextOf (step ({ mid with cnt := 5#4, rdy := true }.schedule [.selAssert])) = some { mid with en := true } := by decide
/-- V4: under policy (b) the pending opcode is forgotten. -/
theorem test_sel_assert_resync :
    (nextOf (stepWith { resyncOnSelect := true } ({ mid with seq := .awaitingArgument .d }.schedule [.selAssert]))).map
      (·.seq) = some .awaitingOpcode := by decide
/-- The worked example of R82. -/
theorem test_sel_deassert :
    nextOf (step ((busyState 7#4 0b10110010#8 false).schedule [.selDeassert])) =
      some { busyState 7#4 0b10110010#8 false with en := false } := by decide
/-- The worked example of R90, first half-edge. -/
theorem test_sampling_half_edge :
    nextOf (step ((busyState 14#4 0b10100010#8 true).schedule [.clkEdge false])) =
      some (busyState 15#4 0b10100010#8 false) := by decide
/-- The worked example of R90, second half-edge: the completion of 0x44. -/
theorem test_completion :
    nextOf (step ((busyState 15#4 0b10100010#8 false).schedule [.clkEdge true])) =
      some { busyState 0#4 0x44#8 false with br := 0x44#8, rdy := true } := by decide
/-- V10, ordinal 12: a shift that completes nothing. -/
theorem test_shifting_half_edge :
    (nextOf (step ((busyState 11#4 0xE8#8 true).schedule [.clkEdge false]))).map (fun t => (t.sr, t.cnt, t.rdy)) =
      some (0xD1#8, 12#4, false) := by decide
/-- V16: nothing moves while deselected. -/
theorem test_deselected_half_edge :
    nextOf (step ({ mid with cnt := 3#4, sr := 0x01#8, din := true }.schedule [.clkEdge false])) =
      some { mid with cnt := 3#4, sr := 0x01#8, din := true } := by decide
/-- V31. -/
theorem test_is_busy : nextOf (step ((busyState 1#4 0x00#8 false).schedule [.isBusy])) =
    some { busyState 1#4 0x00#8 false with conflict := true, result := some (.isBusy true) } := by decide
/-- V35. -/
theorem test_put : nextOf (step ({ busyState 0#4 0x44#8 false with rdy := true }.schedule [.put 0xF0#8])) =
    some { busyState 0#4 0xF0#8 false with rdy := true, result := some (.put .ok) } := by decide
/-- V36. -/
theorem test_put_busy : nextOf (step ((busyState 7#4 0xFA#8 false).schedule [.put 0x33#8])) =
    some { busyState 7#4 0xFA#8 false with conflict := true, result := some (.put .tryLater) } := by decide
/-- V38. -/
theorem test_get : nextOf (step ({ mid with br := 0x2A#8, rdy := true }.schedule [.get])) =
    some { mid with br := 0x2A#8, rdy := true, result := some (.get 0x2A#8) } := by decide
/-- V60: Reset in the middle of things; SR, DIN, BR are not looked at. -/
theorem test_reset_event :
    (nextOf (step ({ busyState 6#4 0x17#8 false with seq := .awaitingArgument .b, outd := 0x5A#8 }.schedule
      [.reset]))).map (fun t => (t.en, t.cnt, t.rdy, t.seq, t.outd, t.outb)) =
      some (false, 0#4, false, .awaitingOpcode, 0x00#8, 0b000#3) := by decide
/-- The outputs while selected and not (R25, R26; P5 step 2). -/
theorem test_outputs : (busyState 0#4 0xA5#8 false).sdo = some true ∧ (busyState 0#4 0xA5#8 false).ind = true ∧
    mid.sdo = none ∧ mid.ind = false := by decide
/-- SEL_N falls while SCK rises: both serialisations (R139). -/
theorem test_pins_both_orders :
    pinEvents ⟨false, true, true, false⟩ [.selN, .sck, .sdi, .rst] ⟨true, false, true, false⟩ =
      [.selAssert, .clkEdge true] ∧
    pinEvents ⟨false, true, true, false⟩ [.sck, .selN, .sdi, .rst] ⟨true, false, true, false⟩ =
      [.clkEdge true, .selAssert] := by decide

/-! ## Witnesses: the hypotheses of each statement can be met together -/

/-- One of each event. -/
def everyEvent : List Event :=
  [.reset, .selAssert, .selDeassert, .clkEdge true, .consume, .isBusy, .put 0xA5#8, .get]

/-- A whole command in one window, each byte consumed as it completes: a schedule that keeps the whole contract. -/
def contractRun : List Event :=
  [.selAssert] ++ byteEvents 0x44#8 0x00#8 ++ [.consume] ++ byteEvents 0x2A#8 0xFF#8 ++ [.consume, .selDeassert]

theorem witness_EncodedItemsDecodeBack :
    Config.standard.wellFormed = true ∧ (Instr.rej 0x43#8).wellFormed Config.standard = true := by decide
theorem witness_DecodedBytesReencode : decode Config.standard [0x44#8, 0x2A#8, 0x51#8] = .ok (.d 0x2A#8, [0x51#8]) := rfl
theorem witness_ItemLengthIsKnownFromTheFirstByte :
    itemLength Config.standard 0x44#8 ≤ [0x00#8].length + 1 ∧ itemLength Config.standard 0x43#8 ≤ ([] : List Byte).length + 1 ∧
      ([] : List Byte).length + 1 < itemLength Config.standard 0x42#8 := by decide
theorem witness_StreamDecoderEmitsEncodedItems :
    Config.standard.wellFormed = true ∧
      ∀ i ∈ [Instr.d 0x42#8, .rej 0x00#8, .b 0xF8#8], i.wellFormed Config.standard = true := by decide
theorem witness_TableRowsDecode : (0x43#8 : Byte) ≠ 0x44#8 ∧ (0x43#8 : Byte) ≠ 0x42#8 := by decide
theorem witness_CommandDOverTwoConsumes : State.reset.seq = .awaitingOpcode := rfl
theorem witness_CommandBOverTwoConsumes : mid.seq = .awaitingOpcode := rfl
theorem witness_RejectedByteIsConsumed :
    mid.seq = .awaitingOpcode ∧ (0xFF#8 : Byte) ≠ 0x44#8 ∧ (0xFF#8 : Byte) ≠ 0x42#8 := by decide
theorem witness_DispatchTransitionTable_opcodes :
    mid.seq = .awaitingOpcode ∧ (0x43#8 : Byte) ≠ 0x44#8 ∧ (0x43#8 : Byte) ≠ 0x42#8 ∧ (0x44#8 : Byte) ≠ 0x42#8 := by decide
theorem witness_DispatchTransitionTable_arguments :
    { mid with seq := .awaitingArgument .d }.seq = .awaitingArgument .d ∧
      { mid with seq := .awaitingArgument .b }.seq = .awaitingArgument .b := by decide
theorem witness_CommandIssuedTwiceIsIssuedOnce : State.reset.seq = .awaitingOpcode := rfl
theorem witness_OnlyHighArgumentBitsOfBAreIgnored :
    Config.standard.wellFormed = true ∧ (0x51#8 : Byte) ≠ Config.standard.opcD ∧ (0x51#8 : Byte) ≠ Config.standard.opcB := by
  decide
theorem witness_StepRunsTheDecodedItem_item :
    (mid.offer 0x51#8).events.headD .consume = .consume ∧ (mid.offer 0x51#8).rdy = true ∧
      decode Config.standard ((mid.offer 0x51#8).pendingBytes Config.standard) = .ok (.rej 0x51#8, []) := ⟨rfl, rfl, rfl⟩
theorem witness_StepRunsTheDecodedItem_command :
    decode Config.standard
      (({ mid with seq := .awaitingArgument .b }.offer 0xFF#8).pendingBytes Config.standard) = .ok (.b 0xFF#8, []) := rfl
theorem witness_StepRunsTheDecodedItem_opcode :
    (mid.offer 0x44#8).rdy = true ∧
      decode Config.standard ((mid.offer 0x44#8).pendingBytes Config.standard) = .error (.argumentMissing .d) := ⟨rfl, rfl⟩
theorem witness_FetchWordRunsItsItem : (Instr.d 0x44#8).wellFormed Config.standard = true ∧
    (Instr.rej 0xFF#8).wellFormed Config.standard = true := by decide
theorem witness_OneNonOpcodeByteResynchronises :
    (0x00#8 : Byte) ≠ 0x44#8 ∧ (0x00#8 : Byte) ≠ 0x42#8 ∧ mid.seq = .awaitingOpcode := by decide
/-- For the statements over one step: from this state every kind of event is taken as the next one, and a step answers. -/
theorem witness_every_event_steps :
    ∀ e ∈ everyEvent, nextEvent (mid.schedule [e]) = e ∧ (nextOf (step (mid.schedule [e]))).isSome = true := by decide
theorem witness_EachSideWritesOnlyItsOwnElements : ∃ t, step (mid.schedule [.put 0xA5#8]) = .next t := ⟨_, rfl⟩
theorem witness_OutputGroupsChangeOnlyAtTheirArgument_d :
    ∃ t, step ({ mid with seq := .awaitingArgument .d }.offer 0x2A#8) = .next t ∧ t.outd ≠ mid.outd :=
  ⟨_, rfl, by decide⟩
theorem witness_OutputGroupsChangeOnlyAtTheirArgument_b :
    ∃ t, step ({ mid with seq := .awaitingArgument .b }.offer 0x07#8) = .next t ∧ t.outb ≠ mid.outb :=
  ⟨_, rfl, by decide⟩
theorem witness_SequencePositionMovesOnlyOnAConsumedByte :
    ∃ t, step (mid.offer 0x42#8) = .next t ∧ t.seq ≠ mid.seq := ⟨_, rfl, by decide⟩
theorem witness_ReadyFlagWriters_completion :
    nextEvent ((busyState 15#4 0x00#8 true).schedule [.clkEdge false]) = .clkEdge false ∧
      (busyState 15#4 0x00#8 true).en = true ∧ (busyState 15#4 0x00#8 true).cnt = 15#4 := by decide
theorem witness_ReadyFlagWriters_others :
    ¬ ((busyState 14#4 0x00#8 true).en = true ∧ (busyState 14#4 0x00#8 true).cnt = 15#4) ∧
      nextEvent (mid.schedule [.selAssert]) = .selAssert ∧ nextEvent (mid.schedule [.get]) = .get := by decide
theorem witness_EnableStateWritersAndEffects :
    (∃ t, step ((busyState 15#4 0x00#8 true).schedule [.clkEdge false]) = .next t) ∧
      (∃ t, step (mid.schedule [.clkEdge true]) = .next t) ∧ (busyState 15#4 0x00#8 true).en = true ∧ mid.en = false :=
  ⟨⟨_, rfl⟩, ⟨_, rfl⟩, rfl, rfl⟩
theorem witness_ByteRegisterWriters :
    ∃ t, step ((busyState 15#4 0xA2#8 false).schedule [.clkEdge true]) = .next t ∧
      nextEvent ((busyState 15#4 0xA2#8 false).schedule [.clkEdge true]) ≠ .reset := ⟨_, rfl, by decide⟩
theorem witness_ShiftRegisterWriters_shift :
    ∃ t, step ((busyState 11#4 0xE8#8 true).schedule [.clkEdge false]) = .next t ∧ t.sr ≠ 0xE8#8 ∧
      (busyState 11#4 0xE8#8 true).cnt.toNat % 2 = 1 := ⟨_, rfl, by decide, by decide⟩
theorem witness_ShiftRegisterWriters_put :
    ∃ t, step (mid.schedule [.put 0xA5#8]) = .next t ∧ t.sr ≠ mid.sr ∧ mid.cnt = 0#4 := ⟨_, rfl, by decide, rfl⟩
theorem witness_CounterAndSampleLatchWriters :
    ∃ t, step ((busyState 14#4 0x00#8 true).schedule [.clkEdge false]) = .next t ∧ t.cnt ≠ 14#4 ∧ t.din ≠ true ∧
      (busyState 14#4 0x00#8 true).cnt.toNat % 2 = 0 := ⟨_, rfl, by decide, by decide, by decide⟩
theorem witness_ConflictRecordWriters :
    (∃ t, step ((busyState 15#4 0x00#8 true).schedule [.isBusy]) = .next t ∧ t.conflict = true) ∧
      nextEvent (mid.schedule [.get]) ≠ .isBusy := ⟨⟨_, rfl, by decide⟩, by decide⟩
theorem witness_SelAssertEffect : nextEvent (mid.schedule [.selAssert]) = .selAssert := rfl
theorem witness_SelDeassertEffect : nextEvent (mid.schedule [.selDeassert, .clkEdge true]) = .selDeassert := rfl
theorem witness_HonouredHalfEdgeEffect :
    nextEvent ((busyState 0#4 0x00#8 true).schedule [.clkEdge true]) = .clkEdge true ∧
      (busyState 0#4 0x00#8 true).en = true ∧ (busyState 0#4 0x00#8 true).cnt.toNat % 2 = 0 ∧
      (busyState 13#4 0x00#8 true).cnt.toNat % 2 = 1 ∧ (busyState 13#4 0x00#8 true).cnt ≠ 15#4 ∧
      (busyState 15#4 0x00#8 true).cnt = 15#4 := by decide
theorem witness_DeselectedHalfEdgesChangeNothing :
    mid.en = false ∧ (mid.schedule [.clkEdge true, .clkEdge false, .get]).events =
      [true, false].map Event.clkEdge ++ [.get] := by decide
theorem witness_ByteArrivesMostSignificantBitFirst :
    ((busyState 0#4 0xFF#8 false).schedule (byteEvents 0x44#8 0xFF#8 ++ [.get])).en = true ∧
      ((busyState 0#4 0xFF#8 false).schedule (byteEvents 0x44#8 0xFF#8 ++ [.get])).cnt = 0#4 := by decide
theorem witness_OldShiftRegisterIsShiftedOut :
    ((busyState 0#4 0xA5#8 false).schedule (byteEvents 0x42#8 0x00#8 ++ [])).events = byteEvents 0x42#8 0x00#8 ++ [] ∧
      (busyState 0#4 0xA5#8 false).en = true ∧ (busyState 0#4 0xA5#8 false).cnt = 0#4 := by decide
theorem witness_ItemsSentOverTheWireAreExecuted :
    (Instr.d 0x2A#8).wellFormed Config.standard = true ∧ (busyState 0#4 0x00#8 false).en = true ∧
      (busyState 0#4 0x00#8 false).cnt = 0#4 ∧ (busyState 0#4 0x00#8 false).seq = .awaitingOpcode := by decide
theorem witness_IsBusyEffect : nextEvent (mid.schedule [.isBusy]) = .isBusy := rfl
theorem witness_PutEffect : nextEvent (mid.schedule [.put 0xFF#8]) = .put 0xFF#8 ∧ mid.cnt = 0#4 ∧
    (busyState 15#4 0x00#8 false).cnt ≠ 0#4 := by decide
theorem witness_GetEffect : nextEvent (mid.schedule [.get]) = .get ∧ nextEvent (mid.offer 0x44#8) = .consume ∧
    (mid.offer 0x44#8).rdy = true ∧ (nextOf (dispatch Config.standard 0x44#8 mid)).isSome = true := by decide
theorem witness_LocalCallsNeverCorruptAByte :
    (busyState 0#4 0xFF#8 false).en = true ∧ (busyState 0#4 0xFF#8 false).cnt = 0#4 ∧
      ((.put 0x33#8 :: (byteEvents 0x3C#8 0x00#8 ++ [.consume])).filter (fun e => !e.isLocal)) =
        byteEvents 0x3C#8 0x00#8 := by decide
theorem witness_PollWithoutAByteChangesNothing : nextEvent mid = .consume ∧ mid.rdy = false := by decide
theorem witness_ConsumeIgnoresTheEnableState : nextEvent (mid.offer 0x81#8) = .consume := rfl
theorem witness_ReadyByteIsEventuallyTaken :
    { mid with rdy := true }.rdy = true ∧ ∀ e ∈ [Event.clkEdge true, .selDeassert, .get], e ≠ .selAssert ∧ e ≠ .reset := by
  decide
theorem witness_ResetEffect : nextEvent (mid.schedule [.reset]) = .reset := rfl
theorem witness_ByteCutShortIsDiscarded :
    (busyState 0#4 0x44#8 false).en = true ∧ (busyState 0#4 0x44#8 false).cnt = 0#4 ∧
      (List.replicate 15 true).length < 16 := by decide
theorem witness_BusySticksUntilReselect :
    { mid with cnt := 10#4 }.en = false ∧ { mid with cnt := 10#4 }.cnt ≠ 0#4 ∧
      Event.selAssert ∉ [Event.put 0x33#8, .clkEdge true] ∧ Event.reset ∉ [Event.put 0x33#8, .clkEdge true] := by decide
theorem witness_ReselectDropsAnUnconsumedByte :
    ({ mid with rdy := true }.schedule [.selAssert, .consume]).rdy = true ∧
      ({ mid with rdy := true }.schedule [.selAssert, .consume]).events = .selAssert :: .consume :: [] := by decide
theorem witness_PendingOpcodeSurvivesReselection :
    { mid with seq := .awaitingArgument .d }.seq = .awaitingArgument .d ∧
      Event.reset ∉ [Event.selAssert, .clkEdge true, .selDeassert, .selAssert] ∧
      consumedBytes 4 ({ mid with seq := .awaitingArgument .d }.schedule
        [.selAssert, .clkEdge true, .selDeassert, .selAssert]) = [] := by decide
theorem witness_ResyncPolicyChangesOnlySelAssert : nextEvent (mid.offer 0x44#8) ≠ .selAssert := by decide
theorem witness_BothOrdersOfSimultaneousEvents :
    { busyState 15#4 0xA2#8 false with rdy := true }.en = true ∧
      { busyState 15#4 0xA2#8 false with rdy := true }.cnt = 15#4 ∧
      { busyState 15#4 0xA2#8 false with rdy := true }.rdy = true ∧ (busyState 0#4 0x00#8 false).cnt = 0#4 := by decide
theorem witness_PinTransitionsIssueEvents : [Line.rst, .sdi, .sck, .selN].Perm [.selN, .sck, .sdi, .rst] := by decide
/-- Mid-byte, 15 half-edges in (V13), and an earlier byte still unread. -/
theorem witness_StepKeepsAgreementWithTheWire :
    Agrees ⟨true, List.replicate 15 true, some 0x44#8, true, [0x44#8]⟩ { busyState 15#4 0x7F#8 true with rdy := true } := by
  unfold Agrees; decide
theorem witness_StepKeepsAgreementWithTheWire_step :
    ∃ t, step ({ busyState 15#4 0x7F#8 true with rdy := true }.schedule [.clkEdge false]) = .next t := ⟨_, rfl⟩
theorem witness_NoPartialByteIsExposed : 17 ≤ contractRun.length := by decide
theorem witness_OutputsFollowTheConsumedBytes :
    Event.reset ∉ ({ mid with rdy := true }.schedule [.consume, .get]).events.take 2 ∧
      ∃ t, run 2 ({ mid with rdy := true }.schedule [.consume, .get]) = .next t := ⟨by decide, _, rfl⟩
theorem witness_NoByteIsLostUnderTheHostContract :
    conforms keepsBytes History.initial contractRun = true ∧
      (History.initial.after contractRun).sent = [0x44#8, 0x2A#8] := by decide
/-- The first of the two outcomes of the contract statement, and the other: the last byte not yet consumed. -/
theorem witness_NoByteIsLostUnderTheHostContract_unread :
    conforms keepsBytes History.initial ([.selAssert] ++ byteEvents 0x44#8 0x00#8) = true ∧
      (History.initial.after ([.selAssert] ++ byteEvents 0x44#8 0x00#8)).unread = true := by decide
theorem witness_EveryWindowOpensOnACommandBoundary :
    conforms keepsCommands History.initial (contractRun ++ [.selAssert]) = true := by decide
theorem witness_MasterCannotObserveTheDispatcher :
    SameTransport { mid with rdy := true } { mid with outd := 0xFF#8, seq := .awaitingArgument .b } ∧
      (∃ t, run 1 { mid with rdy := true } = .next t) ∧
      (∃ t, run 1 { mid with outd := 0xFF#8, seq := .awaitingArgument .b } = .next t) :=
  ⟨⟨rfl, rfl, rfl, rfl, rfl, rfl⟩, ⟨_, rfl⟩, ⟨_, rfl⟩⟩
theorem witness_StepKeepsEqualTransports :
    SameTransport { mid with rdy := true } { mid with outd := 0xFF#8, seq := .awaitingArgument .b } ∧
      (∃ t, step { mid with rdy := true } = .next t) ∧
      (∃ t, step { mid with outd := 0xFF#8, seq := .awaitingArgument .b } = .next t) :=
  ⟨⟨rfl, rfl, rfl, rfl, rfl, rfl⟩, ⟨_, rfl⟩, ⟨_, rfl⟩⟩
/-- `D 0x2A` and the opcode `B` consumed (program P1), the argument in the mailbox. -/
theorem witness_StepKeepsOutputsSpelledByConsumedBytes :
    SpelledBy [0x44#8, 0x2A#8, 0x42#8]
      { State.reset with outd := 0x2A#8, seq := .awaitingArgument .b, br := 0xFF#8, rdy := true } ∧
    (∃ t, step { State.reset with outd := 0x2A#8, seq := .awaitingArgument .b, br := 0xFF#8, rdy := true } = .next t) ∧
    consumedSinceReset [0x44#8, 0x2A#8, 0x42#8]
      { State.reset with outd := 0x2A#8, seq := .awaitingArgument .b, br := 0xFF#8, rdy := true } =
        [0x44#8, 0x2A#8, 0x42#8, 0xFF#8] :=
  ⟨by unfold SpelledBy; decide, ⟨_, rfl⟩, by decide⟩

end Sys2Proof.Tests
end

section
/-! The encoding's don't-care bits (30_encoding.md R68): what the two commands see of their argument, and what the stream
decoder makes of the bytes after a rejected one. -/

namespace Sys2Proof.Machine

/-- The effect of `D v` (R120), written with the named updates of the state. -/
theorem exec_d (arg : Byte) (s : State) :
    exec (.d arg) s = .next (((s.setOutd arg).setSeq .awaitingOpcode).answer (.consume .ok)) := rfl

/-- The effect of `B v` (R121), written with the named updates of the state. -/
theorem exec_b (arg : Byte) (s : State) :
    exec (.b arg) s = .next (((s.setOutb (operandB arg)).setSeq .awaitingOpcode).answer (.consume .ok)) := rfl

theorem operandB_eq_iff (u v : Byte) : operandB u = operandB v ↔ u.toNat % 8 = v.toNat % 8 := by
  rw [← BitVec.toNat_inj, operandB_toNat, operandB_toNat]

/-- `D` sees its whole argument: equal effects leave equal values in `OUTD`. -/
theorem exec_d_eq_iff (u v : Byte) (s : State) : exec (.d u) s = exec (.d v) s ↔ u = v := by
  constructor
  · intro h
    rw [exec_d, exec_d, Host.Outcome.next.injEq] at h
    simpa using congrArg State.outd h
  · rintro rfl
    rfl

/-- `B` sees its operand alone: equal effects leave equal values in `OUTB`. -/
theorem exec_b_eq_iff (u v : Byte) (s : State) : exec (.b u) s = exec (.b v) s ↔ operandB u = operandB v := by
  constructor
  · intro h
    rw [exec_b, exec_b, Host.Outcome.next.injEq] at h
    simpa using congrArg State.outb h
  · intro h
    rw [exec_b, exec_b, h]

end Sys2Proof.Machine

namespace Sys2Proof

/-- In opcode position, an opcode and the byte after it are one item (R69). -/
theorem decodeStream_command {cfg : Config} (h : cfg.wellFormed = true) (g : OutputGroup) (arg : Byte)
    (rest : List Byte) :
    decodeStream cfg .awaitingOpcode (cfg.opcode g :: arg :: rest) =
      (commandOf g arg :: (decodeStream cfg .awaitingOpcode rest).1, (decodeStream cfg .awaitingOpcode rest).2) := by
  rw [decodeStream_opcode (nextItem_recognised (opcodeGroup_opcode h g)), decodeStream_item (nextItem_argument cfg g arg)]

/-- In opcode position, a byte that is no opcode is an item by itself, and what follows is decoded afresh (R69). -/
theorem decodeStream_rejected {cfg : Config} {x : Byte} (h : opcodeGroup cfg x = none) (rest : List Byte) :
    decodeStream cfg .awaitingOpcode (x :: rest) =
      (.rej x :: (decodeStream cfg .awaitingOpcode rest).1, (decodeStream cfg .awaitingOpcode rest).2) :=
  decodeStream_item (nextItem_rejected h) rest

/-- Settles O15: the effects differ exactly where the written operands do, and a rejected byte is an item of length 1 that
leaves the decoder in opcode position. -/
theorem onlyHighArgumentBitsOfBAreIgnored : Obligations.OnlyHighArgumentBitsOfBAreIgnored := by
  unfold Obligations.OnlyHighArgumentBitsOfBAreIgnored
  refine ⟨fun u v s => ?_, Machine.exec_d_eq_iff, nextItem_argument, fun cfg x y rest hD hB => ?_,
    fun cfg x arg g hcfg hD hB => ?_⟩
  · exact (Machine.exec_b_eq_iff u v s).trans (Machine.operandB_eq_iff u v)
  · exact decode_rejected (opcodeGroup_none_iff.2 ⟨hD, hB⟩) (y :: rest)
  · rw [decodeStream_rejected (opcodeGroup_none_iff.2 ⟨hD, hB⟩), decodeStream_command hcfg]
    rfl

end Sys2Proof
end

section
/-! `Get` and the Consumer read the same register (42_transport_access.md R104). -/

namespace Sys2Proof.Machine

/-- A step that takes `Get` answers `BR` (R104); taking the event off the schedule is all else it does. -/
theorem step_get {s : State} (h : nextEvent s = .get) : step s = .next (s.advance.answer (.get s.br)) := by
  rw [step_eq, h]
  rfl

/-- A step that takes `Consume` with a ready byte is the dispatch of `BR`, with `RDY` cleared afterwards (R104, R110). -/
theorem step_consume_ready {s d : State} (h : nextEvent s = .consume) (hr : s.rdy = true)
    (hd : dispatch Config.standard s.br s.advance = .next d) : step s = .next (d.setRdy false) := by
  rw [step_eq, h]
  exact consume_ready (s := s.advance) hr hd

end Sys2Proof.Machine

namespace Sys2Proof

/-- Settles O37: `Get` answers `BR`, and a `Consume` dispatches that same `BR`. -/
theorem getEffect : Obligations.GetEffect := by
  unfold Obligations.GetEffect
  exact ⟨fun _ h => Machine.step_get h, fun _ _ h hr hd => Machine.step_consume_ready h hr hd⟩

end Sys2Proof
end

section
/-! Who writes the output groups (44_commands.md R124): the argument steps of the two commands, and `Reset`. -/

namespace Sys2Proof.Machine

theorem selAssert_keeps_outputs (cfg : Config) (s : State) :
    (selAssert cfg s).outd = s.outd ∧ (selAssert cfg s).outb = s.outb := by
  simp [selAssert_eq]

theorem clkEdge_keeps_outputs (m : Bool) (s : State) :
    (clkEdge m s).outd = s.outd ∧ (clkEdge m s).outb = s.outb := by
  rcases clkEdge_cases m s with ⟨-, h⟩ | ⟨-, -, h⟩ | ⟨-, -, -, h⟩ | ⟨-, -, h⟩ <;> simp [h]

theorem putByte_keeps_outputs (v : Byte) (s : State) :
    (putByte v s).outd = s.outd ∧ (putByte v s).outb = s.outb := by
  rcases putByte_cases v s with ⟨-, h⟩ | ⟨-, h⟩ <;> simp [h]

/-- No event but `Consume` and `Reset` writes an output group (R124). -/
theorem perform_keeps_outputs {cfg : Config} {e : Event} {s t : State} (hc : e ≠ .consume) (hr : e ≠ .reset)
    (h : perform cfg e s = .next t) : t.outd = s.outd ∧ t.outb = s.outb := by
  cases e with
  | reset => exact absurd rfl hr
  | consume => exact absurd rfl hc
  | selAssert => cases h; exact selAssert_keeps_outputs cfg s
  | selDeassert => cases h; exact ⟨rfl, rfl⟩
  | clkEdge m => cases h; exact clkEdge_keeps_outputs m s
  | isBusy => cases h; exact ⟨rfl, rfl⟩
  | put v => cases h; exact putByte_keeps_outputs v s
  | get => cases h; exact ⟨rfl, rfl⟩

/-- What `Consume` makes of the output groups: an argument step writes the group of the pending command and leaves the
other one; every other `Consume` leaves both (R112, R113, R120, R121). -/
theorem consume_outputs {cfg : Config} {s t : State} (h : consume cfg s = .next t) :
    (t.outd = s.outd ∧ t.outb = s.outb) ∨
    (s.rdy = true ∧ s.seq = .awaitingArgument .d ∧ t.outd = s.br ∧ t.outb = s.outb) ∨
    (s.rdy = true ∧ s.seq = .awaitingArgument .b ∧ t.outd = s.outd ∧ t.outb = operandB s.br) := by
  rcases consume_cases cfg s with ⟨-, hn⟩ | ⟨g, -, -, -, hn⟩ | ⟨-, -, -, hn⟩ | ⟨hrdy, hseq, hn⟩ | ⟨hrdy, hseq, hn⟩ <;>
    cases hn.symm.trans h
  · exact .inl ⟨rfl, rfl⟩
  · exact .inl ⟨rfl, rfl⟩
  · exact .inl ⟨rfl, rfl⟩
  · exact .inr (.inl ⟨hrdy, hseq, rfl, rfl⟩)
  · exact .inr (.inr ⟨hrdy, hseq, rfl, rfl⟩)

/-- Everything a step can do to the output groups (R124). -/
theorem step_outputs {s t : State} (h : step s = .next t) :
    nextEvent s = .reset ∨
    (t.outd = s.outd ∧ t.outb = s.outb) ∨
    (nextEvent s = .consume ∧ s.rdy = true ∧ s.seq = .awaitingArgument .d ∧ t.outd = s.br ∧ t.outb = s.outb) ∨
    (nextEvent s = .consume ∧ s.rdy = true ∧ s.seq = .awaitingArgument .b ∧
      t.outd = s.outd ∧ t.outb = operandB s.br) := by
  rw [step_eq] at h
  by_cases hr : nextEvent s = .reset
  · exact .inl hr
  · by_cases hc : nextEvent s = .consume
    · rw [hc] at h
      rcases consume_outputs h with hkept | hd | hb
      · exact .inr (.inl hkept)
      · exact .inr (.inr (.inl ⟨hc, hd⟩))
      · exact .inr (.inr (.inr ⟨hc, hb⟩))
    · exact .inr (.inl (perform_keeps_outputs (s := s.advance) hc hr h))

end Sys2Proof.Machine

namespace Sys2Proof

/-- Settles O20: of the four things a step can do to the output groups, each group is written by `Reset` and by the
argument step of its own command alone. -/
theorem outputGroupsChangeOnlyAtTheirArgument : Obligations.OutputGroupsChangeOnlyAtTheirArgument := by
  unfold Obligations.OutputGroupsChangeOnlyAtTheirArgument
  intro s t h
  rcases Machine.step_outputs h with hr | ⟨hd, hb⟩ | ⟨hc, hrdy, hseq, hd, hb⟩ | ⟨hc, hrdy, hseq, hd, hb⟩
  · exact ⟨fun _ => .inr hr, fun _ => .inr hr⟩
  · exact ⟨fun hne => absurd hd hne, fun hne => absurd hb hne⟩
  · exact ⟨fun _ => .inl ⟨hc, hrdy, hseq, hd⟩, fun hne => absurd hb hne⟩
  · exact ⟨fun hne => absurd hd hne,
      fun _ => .inl ⟨hc, hrdy, hseq, hb.trans (Machine.operandB_eq_slice s.br)⟩⟩

end Sys2Proof
end

section
/-! Encoding and decoding undo each other (30_encoding.md R62 to R69), and the words of the opcode table (R44). -/

namespace Sys2Proof

theorem standard_wellFormed : Config.standard.wellFormed = true := by decide

theorem opcodeGroup_of_wellFormed_rej {cfg : Config} {x : Byte} (h : (Instr.rej x).wellFormed cfg = true) :
    opcodeGroup cfg x = none :=
  opcodeGroup_none_iff.2 (by simpa [Instr.wellFormed] using h)

/-- A well-formed item is a command of either group, or a byte that is no opcode (R63). -/
theorem wellFormed_cases {cfg : Config} {i : Instr} (h : i.wellFormed cfg = true) :
    (∃ g arg, i = commandOf g arg) ∨ (∃ x, i = .rej x ∧ opcodeGroup cfg x = none) := by
  cases i with
  | d arg => exact .inl ⟨.d, arg, rfl⟩
  | b arg => exact .inl ⟨.b, arg, rfl⟩
  | rej x => exact .inr ⟨x, rfl, opcodeGroup_of_wellFormed_rej h⟩

@[simp] theorem encode_commandOf (cfg : Config) (g : OutputGroup) (arg : Byte) :
    encode cfg (commandOf g arg) = [cfg.opcode g, arg] := by
  cases g <;> rfl

@[simp] theorem encode_rej (cfg : Config) (x : Byte) : encode cfg (.rej x) = [x] := rfl

@[simp] theorem commandOf_wellFormed (cfg : Config) (g : OutputGroup) (arg : Byte) :
    (commandOf g arg).wellFormed cfg = true := by
  cases g <;> rfl

/-- The two ways in which bytes can decode to an item (R64, R69). -/
theorem decode_ok_cases {cfg : Config} {bytes rest : List Byte} {i : Instr} (h : decode cfg bytes = .ok (i, rest)) :
    (∃ g arg, bytes = cfg.opcode g :: arg :: rest ∧ i = commandOf g arg) ∨
    (∃ x, bytes = x :: rest ∧ opcodeGroup cfg x = none ∧ i = .rej x) := by
  match bytes with
  | [] => cases h
  | x :: tail =>
    cases hx : opcodeGroup cfg x with
    | none =>
      cases (decode_rejected hx tail).symm.trans h
      exact .inr ⟨x, rfl, hx, rfl⟩
    | some g =>
      obtain rfl := opcode_of_opcodeGroup hx
      match tail with
      | [] => cases (decode_cut hx).symm.trans h
      | arg :: tail' =>
        cases (decode_command hx arg tail').symm.trans h
        exact .inl ⟨g, arg, rfl, rfl⟩

/-- Settles O1, by the two kinds of well-formed items. -/
theorem encodedItemsDecodeBack : Obligations.EncodedItemsDecodeBack := by
  unfold Obligations.EncodedItemsDecodeBack
  intro cfg i rest hcfg hi
  obtain ⟨g, arg, rfl⟩ | ⟨x, rfl, hx⟩ := wellFormed_cases hi
  · rw [encode_commandOf]
    exact decode_command (opcodeGroup_opcode hcfg g) arg rest
  · exact decode_rejected hx rest

/-- Settles O2, by the two ways in which bytes can decode. -/
theorem decodedBytesReencode : Obligations.DecodedBytesReencode := by
  unfold Obligations.DecodedBytesReencode
  intro cfg bytes rest i h
  obtain ⟨g, arg, rfl, rfl⟩ | ⟨x, rfl, hx, rfl⟩ := decode_ok_cases h
  · simp
  · exact ⟨by simpa [Instr.wellFormed] using opcodeGroup_none_iff.1 hx, rfl⟩

theorem itemLength_of_opcode {cfg : Config} {x : Byte} {g : OutputGroup} (h : opcodeGroup cfg x = some g) :
    itemLength cfg x = 2 := by
  simp [itemLength, h]

theorem itemLength_of_rejected {cfg : Config} {x : Byte} (h : opcodeGroup cfg x = none) : itemLength cfg x = 1 := by
  simp [itemLength, h]

theorem itemLength_eq (cfg : Config) (x : Byte) :
    itemLength cfg x = if x = cfg.opcD ∨ x = cfg.opcB then 2 else 1 := by
  cases h : opcodeGroup cfg x with
  | none => rw [itemLength_of_rejected h, if_neg (not_or.2 (opcodeGroup_none_iff.1 h))]
  | some g =>
    obtain rfl := opcode_of_opcodeGroup h
    rw [itemLength_of_opcode h, if_pos (by cases g <;> simp [Config.opcode])]

/-- Settles O3: after an opcode the outcome turns on whether one more byte is there; any other byte is an item. -/
theorem itemLengthIsKnownFromTheFirstByte : Obligations.ItemLengthIsKnownFromTheFirstByte := by
  unfold Obligations.ItemLengthIsKnownFromTheFirstByte
  intro cfg first tail
  refine ⟨itemLength_eq cfg first, ?_⟩
  cases h : opcodeGroup cfg first with
  | none =>
    rw [itemLength_of_rejected h]
    exact ⟨fun _ => ⟨.rej first, tail, decode_rejected h tail, by omega⟩, fun hlt => by omega⟩
  | some g =>
    rw [itemLength_of_opcode h]
    cases tail with
    | nil => exact ⟨fun hle => absurd hle (by decide), fun _ => ⟨g, decode_cut h⟩⟩
    | cons arg rest =>
      exact ⟨fun _ => ⟨commandOf g arg, rest, decode_command h arg rest, by simp; omega⟩,
        fun hlt => absurd hlt (by simp)⟩

/-- The stream decoder takes the bytes of a well-formed item to that item, and back to opcode position. -/
theorem decodeStream_encode {cfg : Config} {i : Instr} (hcfg : cfg.wellFormed = true) (hi : i.wellFormed cfg = true) :
    decodeStream cfg .awaitingOpcode (encode cfg i) = ([i], .awaitingOpcode) := by
  obtain ⟨g, arg, rfl⟩ | ⟨x, rfl, hx⟩ := wellFormed_cases hi
  · rw [encode_commandOf, decodeStream_command hcfg]
    rfl
  · rw [encode_rej, decodeStream_rejected hx]
    rfl

/-- Settles O4, by induction on the items. -/
theorem streamDecoderEmitsEncodedItems : Obligations.StreamDecoderEmitsEncodedItems := by
  unfold Obligations.StreamDecoderEmitsEncodedItems
  intro cfg items hcfg hitems
  induction items with
  | nil => rfl
  | cons i is ih =>
    rw [List.forall_mem_cons] at hitems
    rw [List.flatMap_cons, decodeStream_append, decodeStream_encode hcfg hitems.1, ih hitems.2]
    rfl

theorem wordBytes_one (b : Byte) : wordBytes 1 b.toNat = [b] := by
  simp [wordBytes]

theorem wordBytes_two (a b : Byte) : wordBytes 2 (256 * a.toNat + b.toNat) = [a, b] := by
  have hhigh : (256 * a.toNat + b.toNat) / 256 = a.toNat := by omega
  simp [wordBytes, Nat.shiftRight_eq_div_pow, hhigh, BitVec.ofNat_add, BitVec.ofNat_mul]

/-- The bytes of an item's table word are its encoding, with the zero byte that pads a word. -/
theorem tableWordBytes_tableWord (cfg : Config) (i : Instr) :
    tableWordBytes (tableBits i) (tableWord cfg i) = encode cfg i ++ [0#8] := by
  cases i <;> simp [tableWordBytes, tableBits, tableWord, encode, wordBytes_one, wordBytes_two]

theorem decodeTableWord_tableWord {i : Instr} (hi : i.wellFormed Config.standard = true) :
    decodeTableWord (tableBits i) (tableWord Config.standard i) = some i := by
  rw [decodeTableWord, tableWordBytes_tableWord, encodedItemsDecodeBack _ i _ standard_wellFormed hi]

theorem tableWord_d (arg : Byte) : tableWord Config.standard (.d arg) = 0x4400 + arg.toNat := rfl

theorem tableWord_b (arg : Byte) : tableWord Config.standard (.b arg) = 0x4200 + arg.toNat := rfl

theorem tableWord_rej (x : Byte) : tableWord Config.standard (.rej x) = x.toNat := by
  simp [tableWord]

/-- Settles O5: each row's word is the table word of its item. -/
theorem tableRowsDecode : Obligations.TableRowsDecode := by
  unfold Obligations.TableRowsDecode
  refine ⟨fun arg => ?_, fun arg => ?_, fun x hD hB => ?_⟩
  · rw [← tableWord_d]
    exact decodeTableWord_tableWord (i := .d arg) rfl
  · rw [← tableWord_b]
    exact decodeTableWord_tableWord (i := .b arg) rfl
  · rw [← tableWord_rej]
    exact decodeTableWord_tableWord (i := .rej x) (by simp [Instr.wellFormed, Config.standard, hD, hB])

/-- Settles O6: five closed decodings. -/
theorem writtenWordsDecode : Obligations.WrittenWordsDecode := by
  unfold Obligations.WrittenWordsDecode
  exact ⟨rfl, rfl, rfl, rfl, rfl⟩

end Sys2Proof
end

section
/-! What one event can do, said once as a relation, and what each event makes of each element (10_state.md, section 2).
The statements about single steps read it off there. -/

namespace Sys2Proof.Machine

/-- What an event can do to a state, with the condition of each outcome: one constructor per rule of the spec. -/
inductive Effect (cfg : Config) (s : State) : Event → State → Prop
  /-- R160. -/
  | reset : Effect cfg s .reset (resetBlock cfg s)
  /-- R80, with R116 for the position. -/
  | selAssert : Effect cfg s .selAssert
      { s with
        cnt := 0#4
        rdy := false
        en := true
        seq := if cfg.resyncOnSelect then .awaitingOpcode else s.seq }
  /-- R82. -/
  | selDeassert : Effect cfg s .selDeassert (s.setEn false)
  /-- R95. -/
  | ignored (m : Bool) (hen : s.en = false) : Effect cfg s (.clkEdge m) s
  /-- R91. -/
  | sampled (m : Bool) (hen : s.en = true) (heven : s.cnt.toNat % 2 = 0) : Effect cfg s (.clkEdge m) (s.sample m)
  /-- R92. -/
  | shifted (m : Bool) (hen : s.en = true) (hodd : s.cnt.toNat % 2 = 1) (hlast : s.cnt ≠ 15#4) :
      Effect cfg s (.clkEdge m) s.shift
  /-- R93. -/
  | completed (m : Bool) (hen : s.en = true) (hlast : s.cnt = 15#4) : Effect cfg s (.clkEdge m) s.shift.completeByte
  /-- R110, with nothing ready. -/
  | polled (hrdy : s.rdy = false) : Effect cfg s .consume s
  /-- R112. -/
  | opcode (g : OutputGroup) (hrdy : s.rdy = true) (hseq : s.seq = .awaitingOpcode)
      (hg : opcodeGroup cfg s.br = some g) : Effect cfg s .consume ((opcodeStep g s).setRdy false)
  /-- R113, R122. -/
  | rejected (hrdy : s.rdy = true) (hseq : s.seq = .awaitingOpcode) (hg : opcodeGroup cfg s.br = none) :
      Effect cfg s .consume ((s.answer (.consume .rejected)).setRdy false)
  /-- R114, R120. -/
  | argumentD (hrdy : s.rdy = true) (hseq : s.seq = .awaitingArgument .d) :
      Effect cfg s .consume ((((s.setOutd s.br).setSeq .awaitingOpcode).answer (.consume .ok)).setRdy false)
  /-- R114, R121. -/
  | argumentB (hrdy : s.rdy = true) (hseq : s.seq = .awaitingArgument .b) :
      Effect cfg s .consume ((((s.setOutb (operandB s.br)).setSeq .awaitingOpcode).answer (.consume .ok)).setRdy false)
  /-- R100. -/
  | queried : Effect cfg s .isBusy (s.recordQuery.answer (.isBusy s.busy))
  /-- R102, R103, busy. -/
  | putRefused (v : Byte) (hcnt : s.cnt ≠ 0#4) : Effect cfg s (.put v) (s.recordQuery.answer (.put .tryLater))
  /-- R102, idle. -/
  | putStaged (v : Byte) (hcnt : s.cnt = 0#4) : Effect cfg s (.put v) ((s.recordQuery.setSr v).answer (.put .ok))
  /-- R104. -/
  | got : Effect cfg s .get (s.answer (.get s.br))

/-- Every event answers a next state, and it is one of the effects listed. -/
theorem perform_total (cfg : Config) (e : Event) (s : State) : ∃ t, perform cfg e s = .next t ∧ Effect cfg s e t := by
  cases e with
  | reset => exact ⟨_, rfl, .reset⟩
  | selAssert => exact ⟨_, congrArg Host.Outcome.next (selAssert_eq cfg s), .selAssert⟩
  | selDeassert => exact ⟨_, rfl, .selDeassert⟩
  | clkEdge m =>
    rcases clkEdge_cases m s with ⟨hen, h⟩ | ⟨hen, heven, h⟩ | ⟨hen, hodd, hlast, h⟩ | ⟨hen, hlast, h⟩
    · exact ⟨_, congrArg Host.Outcome.next h, .ignored m hen⟩
    · exact ⟨_, congrArg Host.Outcome.next h, .sampled m hen heven⟩
    · exact ⟨_, congrArg Host.Outcome.next h, .shifted m hen hodd hlast⟩
    · exact ⟨_, congrArg Host.Outcome.next h, .completed m hen hlast⟩
  | consume =>
    rcases consume_cases cfg s with ⟨hr, h⟩ | ⟨g, hr, hs, hg, h⟩ | ⟨hr, hs, hg, h⟩ | ⟨hr, hs, h⟩ | ⟨hr, hs, h⟩
    · exact ⟨_, h, .polled hr⟩
    · exact ⟨_, h, .opcode g hr hs hg⟩
    · exact ⟨_, h, .rejected hr hs hg⟩
    · exact ⟨_, h, .argumentD hr hs⟩
    · exact ⟨_, h, .argumentB hr hs⟩
  | isBusy => exact ⟨_, rfl, .queried⟩
  | put v =>
    rcases putByte_cases v s with ⟨hcnt, h⟩ | ⟨hcnt, h⟩
    · exact ⟨_, congrArg Host.Outcome.next h, .putRefused v hcnt⟩
    · exact ⟨_, congrArg Host.Outcome.next h, .putStaged v hcnt⟩
  | get => exact ⟨_, rfl, .got⟩

theorem perform_effect {cfg : Config} {e : Event} {s t : State} (h : perform cfg e s = .next t) : Effect cfg s e t := by
  obtain ⟨u, hu, heff⟩ := perform_total cfg e s
  cases hu.symm.trans h
  exact heff

theorem ne_last_of_even {c : Count} (heven : c.toNat % 2 = 0) : c ≠ 15#4 := by
  rintro rfl
  cases heven

theorem samplesNext_of_odd {s : State} (hodd : s.cnt.toNat % 2 = 1) : s.samplesNext = false := by
  rw [← Bool.not_eq_true, samplesNext_iff]
  omega

/-- The converse: each of the effects listed is what its event answers. -/
theorem Effect.perform_eq {cfg : Config} {s t : State} {e : Event} (h : Effect cfg s e t) :
    perform cfg e s = .next t := by
  cases h with
  | selAssert => exact congrArg Host.Outcome.next (selAssert_eq cfg s)
  | ignored m hen => simp [perform, clkEdge, hen]
  | sampled m hen heven => simp [perform, clkEdge, hen, (samplesNext_iff s).2 heven]
  | shifted m hen hodd hlast => simp [perform, clkEdge, shiftHalfEdge, hen, samplesNext_of_odd hodd, hlast]
  | completed m hen hlast =>
    have hodd : s.cnt.toNat % 2 = 1 := by rw [hlast]; rfl
    simp [perform, clkEdge, shiftHalfEdge, hen, samplesNext_of_odd hodd, hlast]
  | polled hrdy => exact consume_notReady cfg hrdy
  | opcode g hrdy hseq hg => exact consume_ready hrdy (by simp [dispatch, hseq, nextItem_recognised hg])
  | rejected hrdy hseq hg =>
    exact consume_ready hrdy (by simp [dispatch, hseq, nextItem_rejected hg, exec, execRej])
  | argumentD hrdy hseq => exact consume_ready hrdy (by simp [dispatch, hseq, commandOf, exec_d])
  | argumentB hrdy hseq => exact consume_ready hrdy (by simp [dispatch, hseq, commandOf, exec_b])
  | putRefused v hcnt => simp [perform, putByte, (busy_iff s).2 hcnt]
  | putStaged v hcnt => simp [perform, putByte, State.busy, hcnt]
  | reset | selDeassert | queried | got => rfl

theorem step_of_effect {s t : State} {e : Event} (he : nextEvent s = e) (h : Effect Config.standard s.advance e t) :
    step s = .next t := by
  rw [step_eq, he]
  exact h.perform_eq

/-- A step is the effect of the event taken, on the state with that event off the schedule. -/
theorem step_effect {s t : State} (h : step s = .next t) : Effect Config.standard s.advance (nextEvent s) t :=
  perform_effect h

theorem stepWith_eq (cfg : Config) (s : State) : stepWith cfg s = perform cfg (nextEvent s) s.advance := rfl

namespace Effect

variable {cfg : Config} {s t : State} {e : Event}

theorem events_eq (h : Effect cfg s e t) : t.events = s.events := by
  cases h <;> rfl

theorem en_eq : Effect cfg s e t →
    t.en = match e with
      | .selAssert => true
      | .selDeassert | .reset => false
      | _ => s.en := by
  intro h
  cases h <;> rfl

theorem cnt_eq : Effect cfg s e t →
    t.cnt = match e with
      | .clkEdge _ => if s.en = true then s.cnt + 1#4 else s.cnt
      | .selAssert | .reset => 0#4
      | _ => s.cnt := by
  intro h
  cases h <;> simp [resetBlock, *]

theorem sr_eq : Effect cfg s e t →
    t.sr = match e with
      | .clkEdge _ => if s.en = true ∧ s.cnt.toNat % 2 = 1 then shiftIn s.sr s.din else s.sr
      | .put v => if s.cnt = 0#4 then v else s.sr
      | .reset => Config.freeByte s.draws
      | _ => s.sr := by
  intro h
  cases h <;> simp [resetBlock, *]

theorem din_eq : Effect cfg s e t →
    t.din = match e with
      | .clkEdge m => if s.en = true ∧ s.cnt.toNat % 2 = 0 then m else s.din
      | .reset => Config.freeBit s.draws
      | _ => s.din := by
  intro h
  cases h <;> simp [resetBlock, *]

theorem br_eq : Effect cfg s e t →
    t.br = match e with
      | .clkEdge _ => if s.en = true ∧ s.cnt = 15#4 then shiftIn s.sr s.din else s.br
      | .reset => Config.freeByte (s.draws + 1)
      | _ => s.br := by
  intro h
  cases h with
  | sampled m hen heven => simp [ne_last_of_even heven]
  | _ => simp [resetBlock, *]

theorem rdy_eq : Effect cfg s e t →
    t.rdy = match e with
      | .clkEdge _ => if s.en = true ∧ s.cnt = 15#4 then true else s.rdy
      | .consume | .selAssert | .reset => false
      | _ => s.rdy := by
  intro h
  cases h with
  | sampled m hen heven => simp [ne_last_of_even heven]
  | _ => simp [resetBlock, *]

theorem conflict_eq : Effect cfg s e t →
    t.conflict = match e with
      | .isBusy | .put _ => s.busy
      | .reset => false
      | _ => s.conflict := by
  intro h
  cases h <;> rfl

theorem draws_eq : Effect cfg s e t →
    t.draws = match e with
      | .reset => s.draws + 2
      | _ => s.draws := by
  intro h
  cases h <;> rfl

theorem frame_clkEdge {m : Bool} (h : Effect cfg s (.clkEdge m) t) :
    t = { s with sr := t.sr, din := t.din, cnt := t.cnt, br := t.br, en := t.en, rdy := t.rdy } := by
  cases h <;> rfl

/-- Under policy (a) `SelAssert` leaves the position (decision D9). -/
theorem eq_of_selAssert (h : Effect Config.standard s .selAssert t) :
    t = { s with cnt := 0#4, rdy := false, en := true } := by
  cases h; rfl

theorem frame_consume (h : Effect cfg s .consume t) :
    t = { s with seq := t.seq, outd := t.outd, outb := t.outb, rdy := t.rdy, result := t.result } := by
  cases h <;> rfl

theorem frame_put {v : Byte} (h : Effect cfg s (.put v) t) :
    t = { s with conflict := t.conflict, sr := t.sr, result := t.result } := by
  cases h <;> rfl

/-- Under policy (a) only `Reset` and a byte taken by the Consumer move the position and the output groups. -/
theorem outputs_eq (h : Effect Config.standard s e t) (hr : e ≠ .reset) (hc : ¬ (e = .consume ∧ s.rdy = true)) :
    t.seq = s.seq ∧ t.outd = s.outd ∧ t.outb = s.outb := by
  cases h with
  | reset => exact absurd rfl hr
  | opcode _ hrdy | rejected hrdy | argumentD hrdy | argumentB hrdy => exact absurd ⟨rfl, hrdy⟩ hc
  | _ => exact ⟨rfl, rfl, rfl⟩

end Effect

/-- The events that write the transport read nothing but the transport and the draws. -/
theorem Effect.sameTransport {cfg : Config} {e : Event} {s t s' t' : State} (hs : Effect cfg s e s')
    (ht : Effect cfg t e t') (h : SameTransport s t) : SameTransport s' t' := by
  obtain ⟨hsr, hdin, hcnt, hen, hevents, hdraws⟩ := h
  refine ⟨?_, ?_, ?_, ?_, ?_, ?_⟩
  · rw [hs.sr_eq, ht.sr_eq, hsr, hdin, hcnt, hen, hdraws]
  · rw [hs.din_eq, ht.din_eq, hdin, hcnt, hen, hdraws]
  · rw [hs.cnt_eq, ht.cnt_eq, hcnt, hen]
  · rw [hs.en_eq, ht.en_eq, hen]
  · rw [hs.events_eq, ht.events_eq, hevents]
  · rw [hs.draws_eq, ht.draws_eq, hdraws]

/-- Settles O59: equal schedules give both states the same event. -/
theorem stepKeepsEqualTransports : Obligations.StepKeepsEqualTransports := by
  unfold Obligations.StepKeepsEqualTransports
  rintro s t s' t' ⟨hsr, hdin, hcnt, hen, hevents, hdraws⟩ hs ht
  have hnext : nextEvent t = nextEvent s := by simp [nextEvent, hevents]
  have heff := step_effect ht
  rw [hnext] at heff
  exact (step_effect hs).sameTransport heff ⟨hsr, hdin, hcnt, hen, congrArg List.tail hevents, hdraws⟩

/-- Settles O58, by induction on the number of steps. -/
theorem masterCannotObserveTheDispatcher : Obligations.MasterCannotObserveTheDispatcher := by
  unfold Obligations.MasterCannotObserveTheDispatcher
  intro k
  induction k with
  | zero =>
    rintro s t s' t' ⟨hsr, -, -, hen, -, -⟩ hs ht
    cases hs
    cases ht
    simp [State.sdo, State.ind, hsr, hen]
  | succ k ih =>
    intro s t s' t' h hs ht
    obtain ⟨u, hu, hs'⟩ := run_succ_inv hs
    obtain ⟨w, hw, ht'⟩ := run_succ_inv ht
    exact ih u w s' t' (stepKeepsEqualTransports s t u w h hu hw) hs' ht'

/-- Settles O19: one frame per event. -/
theorem eachSideWritesOnlyItsOwnElements : Obligations.EachSideWritesOnlyItsOwnElements := by
  unfold Obligations.EachSideWritesOnlyItsOwnElements
  intro s t h
  have heff := step_effect h
  refine ⟨?_, fun he => ?_, fun he => ?_, ?_, fun he => ?_⟩
  · rintro (⟨m, he⟩ | he | he) <;> rw [he] at heff
    · exact heff.frame_clkEdge
    · rw [heff.eq_of_selAssert]
      rfl
    · cases heff; rfl
  · rw [he] at heff
    exact heff.frame_consume
  · rw [he] at heff
    cases heff; rfl
  · rintro ⟨v, he⟩
    rw [he] at heff
    exact heff.frame_put
  · rw [he] at heff
    cases heff; rfl

/-- Settles O22, by what each event makes of `RDY`. -/
theorem readyFlagWriters : Obligations.ReadyFlagWriters := by
  unfold Obligations.ReadyFlagWriters
  intro s t h
  have hrdy := (step_effect h).rdy_eq
  refine ⟨?_, ?_, ?_, ?_⟩
  · rintro ⟨m, he⟩ hen hcnt
    simp [hrdy, he, hen, hcnt]
  · rintro ⟨m, he⟩ hnot
    simp [hrdy, he, hnot]
  · rintro (he | he | he) <;> simp [hrdy, he]
  · rintro (he | he | he | ⟨v, he⟩) <;> simp [hrdy, he]

/-- Settles O23, by what each event makes of `EN`; a half-edge that is not honoured does nothing. -/
theorem enableStateWritersAndEffects : Obligations.EnableStateWritersAndEffects := by
  unfold Obligations.EnableStateWritersAndEffects
  refine ⟨fun s t h => ?_, fun s => ?_, fun m s t he h => ?_⟩
  · have hen := (step_effect h).en_eq
    refine ⟨fun he => by simp [hen, he], ?_, fun ha hd hr => ?_⟩
    · rintro (he | he) <;> simp [hen, he]
    · cases he : nextEvent s <;> simp_all
  · cases hen : s.en <;> simp [State.sdo, State.ind, hen]
  · have heff := step_effect h
    rw [he] at heff
    refine ⟨fun hen => by simp [heff.cnt_eq, hen], fun hen => ?_⟩
    cases heff with
    | ignored => rfl
    | sampled _ hen' | shifted _ hen' | completed _ hen' => simp [hen] at hen'

/-- Settles O24: a completion writes the same shift to `SR` and to `BR`. -/
theorem byteRegisterWriters : Obligations.ByteRegisterWriters := by
  unfold Obligations.ByteRegisterWriters
  intro s t h hr
  have hbr := (step_effect h).br_eq
  have hsr := (step_effect h).sr_eq
  refine ⟨?_, fun hnot => ?_⟩
  · rintro ⟨⟨m, he⟩, hen, hcnt⟩
    simp [hbr, hsr, he, hen, hcnt]
  · cases he : nextEvent s with
    | clkEdge m =>
      rw [hbr, he]
      exact if_neg fun hc => hnot ⟨⟨m, he⟩, hc⟩
    | reset => exact absurd he hr
    | _ => simp [hbr, he]

theorem shiftIn_toNat_mod (sr : Byte) (din : Bool) : (shiftIn sr din).toNat = (2 * sr.toNat + din.toNat) % 256 := by
  have hdin := Bool.toNat_lt din
  rw [shiftIn_toNat]
  omega

/-- Settles O25, by what each event makes of `SR`. -/
theorem shiftRegisterWriters : Obligations.ShiftRegisterWriters := by
  unfold Obligations.ShiftRegisterWriters
  intro s t h hr
  have hsr := (step_effect h).sr_eq
  refine ⟨?_, fun v he hcnt => by simp [hsr, he, hcnt], fun hne => ?_⟩
  · rintro ⟨m, he⟩ hen hodd
    simp [hsr, he, hen, hodd, shiftIn_toNat_mod]
  · cases he : nextEvent s with
    | clkEdge m =>
      rw [hsr, he] at hne
      exact .inl ⟨⟨m, rfl⟩, by_contra fun hnot => hne (if_neg hnot)⟩
    | put v =>
      rw [hsr, he] at hne
      exact .inr ⟨⟨v, rfl⟩, by_contra fun hnot => hne (if_neg hnot)⟩
    | reset => exact absurd he hr
    | _ => simp [hsr, he] at hne

/-- Settles O26, by what each event makes of `CNT` and `DIN`. -/
theorem counterAndSampleLatchWriters : Obligations.CounterAndSampleLatchWriters := by
  unfold Obligations.CounterAndSampleLatchWriters
  intro s t h
  have hcnt := (step_effect h).cnt_eq
  have hdin := (step_effect h).din_eq
  refine ⟨?_, ?_, fun hne => ?_, fun m he hen heven => by simp [hdin, he, hen, heven], fun hne => ?_⟩
  · rintro ⟨m, he⟩ hen
    simp [hcnt, he, hen, BitVec.toNat_add]
  · rintro (he | he) <;> simp [hcnt, he]
  · cases he : nextEvent s with
    | clkEdge m =>
      rw [hcnt, he] at hne
      exact .inl ⟨⟨m, rfl⟩, by_contra fun hnot => hne (if_neg hnot)⟩
    | reset => exact .inr (.inr rfl)
    | selAssert => exact .inr (.inl rfl)
    | _ => simp [hcnt, he] at hne
  · cases he : nextEvent s with
    | clkEdge m =>
      rw [hdin, he] at hne
      exact .inl ⟨⟨m, rfl⟩, by_contra fun hnot => hne (if_neg hnot)⟩
    | reset => exact .inr rfl
    | _ => simp [hdin, he] at hne

/-- Settles O27, by what each event makes of `CONFLICT`. -/
theorem conflictRecordWriters : Obligations.ConflictRecordWriters := by
  unfold Obligations.ConflictRecordWriters
  intro s t h
  have hconflict := (step_effect h).conflict_eq
  refine ⟨?_, fun he => by simp [hconflict, he], fun hq hp hr => ?_⟩
  · rintro (he | ⟨v, he⟩) <;> simpa [hconflict, he] using busy_iff s.advance
  · cases he : nextEvent s <;> simp_all

/-- Settles O41: every event has an effect, and none of them touches the schedule. -/
theorem nothingEverBlocks : Obligations.NothingEverBlocks := by
  unfold Obligations.NothingEverBlocks
  intro cfg s
  obtain ⟨t, ht, heff⟩ := perform_total cfg (nextEvent s) s.advance
  exact ⟨t, ht, heff.events_eq⟩

theorem step_total (s : State) : ∃ t, step s = .next t := by
  obtain ⟨t, ht, -⟩ := nothingEverBlocks Config.standard s
  exact ⟨t, ht⟩

theorem step_events {s t : State} (h : step s = .next t) : t.events = s.events.tail := (step_effect h).events_eq

/-- Settles O21: `SEQ` has two writers under policy (a); and a `Consume` always answers, with `RDY` cleared. -/
theorem sequencePositionMovesOnlyOnAConsumedByte : Obligations.SequencePositionMovesOnlyOnAConsumedByte := by
  unfold Obligations.SequencePositionMovesOnlyOnAConsumedByte
  refine ⟨fun s t h hne => ?_, fun b s => ?_⟩
  · by_contra hnot
    obtain ⟨hc, hr⟩ := not_or.1 hnot
    exact hne ((step_effect h).outputs_eq hr hc).1
  · obtain ⟨t, ht⟩ := step_total (s.offer b)
    exact ⟨t, ht, (step_effect ht).rdy_eq⟩

/-- Settles O49: `SelAssert` alone reads the policy. -/
theorem resyncPolicyChangesOnlySelAssert : Obligations.ResyncPolicyChangesOnlySelAssert := by
  unfold Obligations.ResyncPolicyChangesOnlySelAssert
  intro cfg p s hne
  rw [stepWith_eq, stepWith_eq]
  cases he : nextEvent s with
  | selAssert => exact absurd he hne
  | _ => rfl

/-- Settles O42, by induction on the schedule: no event before the first `Consume` clears `RDY`. -/
theorem readyByteIsEventuallyTaken : Obligations.ReadyByteIsEventuallyTaken := by
  unfold Obligations.ReadyByteIsEventuallyTaken
  intro s hrdy hevents
  induction hes : s.events generalizing s with
  | nil => exact ⟨0, s, Nat.le_refl _, rfl, by simp [nextEvent, hes], hrdy⟩
  | cons e es ih =>
    have he := nextEvent_cons hes
    by_cases hc : e = .consume
    · exact ⟨0, s, Nat.zero_le _, rfl, he.trans hc, hrdy⟩
    · obtain ⟨t, ht⟩ := step_total s
      have htail : t.events = es := by rw [step_events ht, hes, List.tail_cons]
      rw [hes, List.forall_mem_cons] at hevents
      have hkeep : t.rdy = true := by
        rw [(step_effect ht).rdy_eq, he]
        cases e <;> simp_all
      obtain ⟨k, u, hk, hu, hnext, hru⟩ := ih t hkeep (htail ▸ hevents.2) htail
      exact ⟨k + 1, u, by simpa using hk, (run_succ ht k).trans hu, hnext, hru⟩

end Sys2Proof.Machine
end

section
/-! Each event taken from any state, with the whole next state (40_transport_select.md to 42_transport_access.md,
70_reset_and_hazards.md section 1). -/

namespace Sys2Proof.Machine

theorem getLsbD_shiftIn_succ (sr : Byte) (din : Bool) {i : Nat} (hi : i < 7) :
    (shiftIn sr din).getLsbD (i + 1) = sr.getLsbD i := by
  simp [shiftIn, hi]

theorem shiftIn_eq_or (sr : Byte) (din : Bool) : shiftIn sr din = (sr <<< 1) ||| (BitVec.ofBool din).setWidth 8 := by
  apply BitVec.eq_of_getLsbD_eq
  intro i hi
  cases i with
  | zero => simp [shiftIn]
  | succ i =>
    rw [getLsbD_shiftIn_succ sr din (Nat.lt_of_succ_lt_succ hi), BitVec.getLsbD_eq_getElem (Nat.lt_of_succ_lt hi)]
    simp [hi]

theorem busy_eq_decide (s : State) : s.busy = decide (s.cnt ≠ 0#4) := by
  rw [Bool.eq_iff_iff, busy_iff, decide_eq_true_iff]

/-- Settles O28, by the rule of `SelAssert` at any parameters. -/
theorem selAssertEffect : Obligations.SelAssertEffect := by
  unfold Obligations.SelAssertEffect
  intro cfg s he
  rw [stepWith_eq, he]
  exact Effect.selAssert.perform_eq

/-- Settles O29: the state after the deselect ignores half-edges because `EN` is 0 there. -/
theorem selDeassertEffect : Obligations.SelDeassertEffect := by
  unfold Obligations.SelDeassertEffect
  intro s he
  exact ⟨_, step_of_effect he .selDeassert, rfl, rfl, rfl, fun m hm => step_of_effect hm (.ignored m rfl)⟩

/-- Settles O30, by the three rules of an honoured half-edge. -/
theorem honouredHalfEdgeEffect : Obligations.HonouredHalfEdgeEffect := by
  unfold Obligations.HonouredHalfEdgeEffect
  intro m s he hen
  simp only [← shiftIn_eq_or]
  refine ⟨fun heven => ?_, fun hodd hlast => ?_, fun hlast => ?_⟩
  · exact step_of_effect he (.sampled m hen heven)
  · exact step_of_effect he (.shifted m hen hodd hlast)
  · rw [step_of_effect he (.completed m hen hlast)]
    simp [State.completeByte, State.shift, State.advance, hlast]

/-- Settles O35, by the rule of `IsBusy`. -/
theorem isBusyEffect : Obligations.IsBusyEffect := by
  unfold Obligations.IsBusyEffect
  intro s he
  rw [← busy_eq_decide]
  exact step_of_effect he .queried

/-- Settles O36, by the two rules of `Put`. -/
theorem putEffect : Obligations.PutEffect := by
  unfold Obligations.PutEffect
  intro v s he
  refine ⟨fun hcnt => ?_, fun hcnt => ?_⟩
  · have hbusy : s.busy = false := by simp [State.busy, hcnt]
    rw [← hbusy]
    exact step_of_effect he (.putStaged v hcnt)
  · rw [← (busy_iff s).2 hcnt]
    exact step_of_effect he (.putRefused v hcnt)

/-- Settles O39, by the rule of a poll that finds nothing. -/
theorem pollWithoutAByteChangesNothing : Obligations.PollWithoutAByteChangesNothing := by
  unfold Obligations.PollWithoutAByteChangesNothing
  intro s he hrdy
  exact step_of_effect he (.polled hrdy)

/-- Settles O43, by the rule of `Reset` at any parameters. -/
theorem resetEffect : Obligations.ResetEffect := by
  unfold Obligations.ResetEffect
  intro cfg s he
  rw [stepWith_eq, he]
  exact ⟨_, Effect.reset.perform_eq, rfl, rfl, rfl, rfl, rfl, rfl, rfl, rfl, rfl, rfl, rfl⟩

/-- Settles O44: the values written in the reset state. -/
theorem resetStateValues : Obligations.ResetStateValues := by
  unfold Obligations.ResetStateValues
  exact ⟨rfl, rfl, rfl, rfl, rfl, rfl, rfl, rfl, rfl, rfl⟩

/-- A run whose first event stands at the head of the schedule. -/
theorem run_cons {s t : State} {e : Event} {es : List Event} (hes : s.events = e :: es)
    (h : Effect Config.standard { s with events := es, result := none } e t) (k : Nat) : run (k + 1) s = run k t :=
  run_succ ((step_cons hes).trans h.perform_eq) k

/-- Settles O47: after the re-select the Consumer's poll finds nothing. -/
theorem reselectDropsAnUnconsumedByte : Obligations.ReselectDropsAnUnconsumedByte := by
  unfold Obligations.ReselectDropsAnUnconsumedByte
  intro s rest _ hes
  rw [run_cons hes .selAssert, run_cons rfl (.polled rfl)]
  rfl

end Sys2Proof.Machine
end

section
/-! The Consumer's step over the byte it is offered (43_dispatcher.md R111, 44_commands.md R120 to R122). -/

namespace Sys2Proof.Machine

theorem operandB_eq_ofNat (arg : Byte) : operandB arg = BitVec.ofNat 3 (arg.toNat &&& 0b00000111) := by
  apply BitVec.eq_of_toNat_eq
  rw [operandB_toNat, show (0b00000111 : Nat) = 2 ^ 3 - 1 from rfl, Nat.and_two_pow_sub_one_eq_mod]
  simp

/-- Settles O7, by the meaning of `D`. -/
theorem commandDCompletes : Obligations.CommandDCompletes := by
  unfold Obligations.CommandDCompletes
  exact exec_d

/-- Settles O8, by the meaning of `B` and its operand's mask. -/
theorem commandBCompletes : Obligations.CommandBCompletes := by
  unfold Obligations.CommandBCompletes
  intro arg s
  rw [← operandB_eq_ofNat]
  exact exec_b arg s

theorem exec_rej (x : Byte) (s : State) : exec (.rej x) s = .next (s.answer (.consume .rejected)) := rfl

/-- Settles O9, by the meaning of a rejected byte. -/
theorem rejectedByteCompletes : Obligations.RejectedByteCompletes := by
  unfold Obligations.RejectedByteCompletes
  exact exec_rej

/-- R112: the row of the transition table for a recognised opcode. -/
theorem step_offer_opcode {s : State} {b : Byte} {g : OutputGroup} (hseq : s.seq = .awaitingOpcode)
    (hg : opcodeGroup Config.standard b = some g) :
    step (s.offer b) =
      .next { s with br := b, rdy := false, seq := .awaitingArgument g, result := some (.consume .ok) } :=
  step_of_effect rfl (.opcode g rfl hseq hg)

/-- R113: the row for any other byte in opcode position. -/
theorem step_offer_rejected {s : State} {b : Byte} (hseq : s.seq = .awaitingOpcode)
    (hg : opcodeGroup Config.standard b = none) :
    step (s.offer b) = .next { s with br := b, rdy := false, result := some (.consume .rejected) } :=
  step_of_effect rfl (.rejected rfl hseq hg)

/-- R114: the row for the argument of `D`. -/
theorem step_offer_argumentD {s : State} (b : Byte) (hseq : s.seq = .awaitingArgument .d) :
    step (s.offer b) =
      .next { s with br := b, rdy := false, outd := b, seq := .awaitingOpcode, result := some (.consume .ok) } :=
  step_of_effect rfl (.argumentD rfl hseq)

/-- R114: the row for the argument of `B`. -/
theorem step_offer_argumentB {s : State} (b : Byte) (hseq : s.seq = .awaitingArgument .b) :
    step (s.offer b) =
      .next { s with
        br := b, rdy := false, outb := operandB b, seq := .awaitingOpcode, result := some (.consume .ok) } :=
  step_of_effect rfl (.argumentB rfl hseq)

theorem opcodeGroup_standard_none {b : Byte} (hD : b ≠ 0x44#8) (hB : b ≠ 0x42#8) :
    opcodeGroup Config.standard b = none :=
  opcodeGroup_none_iff.2 ⟨hD, hB⟩

/-- Settles O13: the five rows. -/
theorem dispatchTransitionTable : Obligations.DispatchTransitionTable := by
  unfold Obligations.DispatchTransitionTable
  intro b s
  rw [← operandB_eq_slice]
  refine ⟨?_, ?_, fun hseq hD hB => ?_, step_offer_argumentD b, step_offer_argumentB b⟩
  · rintro hseq rfl
    exact step_offer_opcode hseq rfl
  · rintro hseq rfl
    exact step_offer_opcode hseq rfl
  · exact step_offer_rejected hseq (opcodeGroup_standard_none hD hB)

/-- Settles O10: the opcode's row, then the argument's. -/
theorem commandDOverTwoConsumes : Obligations.CommandDOverTwoConsumes := by
  unfold Obligations.CommandDOverTwoConsumes
  intro v s hseq
  exact ⟨rfl, _, _, step_offer_opcode hseq rfl, step_offer_argumentD v rfl, rfl, rfl⟩

/-- Settles O11: the opcode's row, then the argument's. -/
theorem commandBOverTwoConsumes : Obligations.CommandBOverTwoConsumes := by
  unfold Obligations.CommandBOverTwoConsumes
  intro v s hseq
  rw [← operandB_eq_ofNat]
  exact ⟨rfl, _, _, step_offer_opcode hseq rfl, step_offer_argumentB v rfl, rfl, rfl⟩

/-- Settles O12: the row of a rejected byte leaves the position as it is. -/
theorem rejectedByteIsConsumed : Obligations.RejectedByteIsConsumed := by
  unfold Obligations.RejectedByteIsConsumed
  intro x s hseq hD hB
  have hx := opcodeGroup_standard_none hD hB
  exact ⟨decode_rejected hx, _, step_offer_rejected hseq hx, rfl, fun y => by rw [hseq]⟩

theorem consumeBytes_cons {s t : State} {b : Byte} (h : step (s.offer b) = .next t) (bs : List Byte) :
    consumeBytes (b :: bs) s = consumeBytes bs t := by
  simp [consumeBytes, h]

theorem consumeBytes_commandD (v : Byte) {s : State} (hseq : s.seq = .awaitingOpcode) :
    consumeBytes [Config.standard.opcD, v] s =
      .next { s with br := v, rdy := false, outd := v, seq := .awaitingOpcode, result := some (.consume .ok) } := by
  rw [consumeBytes_cons (step_offer_opcode hseq rfl), consumeBytes_cons (step_offer_argumentD v rfl)]
  rfl

theorem consumeBytes_commandB (v : Byte) {s : State} (hseq : s.seq = .awaitingOpcode) :
    consumeBytes [Config.standard.opcB, v] s =
      .next { s with
        br := v, rdy := false, outb := operandB v, seq := .awaitingOpcode, result := some (.consume .ok) } := by
  rw [consumeBytes_cons (step_offer_opcode hseq rfl), consumeBytes_cons (step_offer_argumentB v rfl)]
  rfl

/-- Settles O14: the state after the command holds every value the second issue writes. -/
theorem commandIssuedTwiceIsIssuedOnce : Obligations.CommandIssuedTwiceIsIssuedOnce := by
  unfold Obligations.CommandIssuedTwiceIsIssuedOnce
  intro v s hseq
  exact ⟨⟨_, consumeBytes_commandD v hseq, rfl, consumeBytes_commandD v rfl⟩,
    ⟨_, consumeBytes_commandB v hseq, operandB_eq_slice v, consumeBytes_commandB v rfl⟩⟩

/-- Settles O18: as a rejected byte or as an argument, the byte leaves the position AwaitingOpcode. -/
theorem oneNonOpcodeByteResynchronises : Obligations.OneNonOpcodeByteResynchronises := by
  unfold Obligations.OneNonOpcodeByteResynchronises
  intro b s hD hB
  cases hseq : s.seq with
  | awaitingOpcode =>
    exact ⟨_, step_offer_rejected hseq (opcodeGroup_standard_none hD hB), hseq, fun _ => ⟨rfl, rfl⟩⟩
  | awaitingArgument g =>
    cases g with
    | d => exact ⟨_, step_offer_argumentD b hseq, rfl, nofun⟩
    | b => exact ⟨_, step_offer_argumentB b hseq, rfl, nofun⟩

/-- Settles O40: no rule of `Consume` reads or writes `EN`. -/
theorem consumeIgnoresTheEnableState : Obligations.ConsumeIgnoresTheEnableState := by
  unfold Obligations.ConsumeIgnoresTheEnableState
  intro v s he
  obtain ⟨t, ht⟩ := step_total s
  have heff := step_effect ht
  rw [he] at heff
  refine ⟨t, ht, step_of_effect he ?_⟩
  cases heff with
  | polled hrdy => exact .polled hrdy
  | opcode g hrdy hseq hg => exact .opcode g hrdy hseq hg
  | rejected hrdy hseq hg => exact .rejected hrdy hseq hg
  | argumentD hrdy hseq => exact .argumentD hrdy hseq
  | argumentB hrdy hseq => exact .argumentB hrdy hseq

theorem exec_total (i : Instr) (s : State) : ∃ t, exec i s = .next t := by
  cases i <;> exact ⟨_, rfl⟩

/-- When the pending bytes are a whole item, the stream decoder emits that item on the ready byte (R69). -/
theorem nextItem_of_pending_item {s : State} {i : Instr}
    (h : decode Config.standard (s.pendingBytes Config.standard) = .ok (i, [])) :
    nextItem Config.standard s.seq s.br = .item i := by
  cases hseq : s.seq with
  | awaitingOpcode =>
    simp only [State.pendingBytes, hseq] at h
    obtain ⟨g, arg, hbytes, -⟩ | ⟨x, hbytes, hx, rfl⟩ := decode_ok_cases h
    · simp at hbytes
    · cases hbytes
      exact nextItem_rejected hx
  | awaitingArgument g =>
    simp only [State.pendingBytes, hseq] at h
    rw [decode_command (opcodeGroup_opcode standard_wellFormed g)] at h
    cases h
    rfl

/-- When the pending byte is an opcode alone, the stream decoder remembers it (R69). -/
theorem nextItem_of_pending_opcode {s : State} {g : OutputGroup}
    (h : decode Config.standard (s.pendingBytes Config.standard) = .error (.argumentMissing g)) :
    s.seq = .awaitingOpcode ∧ opcodeGroup Config.standard s.br = some g := by
  cases hseq : s.seq with
  | awaitingOpcode =>
    simp only [State.pendingBytes, hseq] at h
    cases hg : opcodeGroup Config.standard s.br with
    | none =>
      rw [decode_rejected hg] at h
      cases h
    | some g' =>
      rw [decode_cut hg] at h
      cases h
      exact ⟨rfl, rfl⟩
  | awaitingArgument g' =>
    simp only [State.pendingBytes, hseq] at h
    rw [decode_command (opcodeGroup_opcode standard_wellFormed g')] at h
    cases h

/-- Settles O16: the dispatch of the ready byte is what the pending bytes decode to. -/
theorem stepRunsTheDecodedItem : Obligations.StepRunsTheDecodedItem := by
  unfold Obligations.StepRunsTheDecodedItem
  intro s he hrdy
  refine ⟨fun i hi => ?_, fun g hg => ?_⟩
  · obtain ⟨t, ht⟩ := exec_total i s.advance
    refine ⟨t, ht, step_consume_ready he hrdy ?_⟩
    simpa [dispatch, nextItem_of_pending_item hi] using ht
  · obtain ⟨hseq, hg⟩ := nextItem_of_pending_opcode hg
    exact step_of_effect he (.opcode g hrdy hseq hg)

theorem placeItem_command {cfg : Config} (hcfg : cfg.wellFormed = true) (g : OutputGroup) (arg : Byte)
    (rest : List Byte) (s : State) :
    placeItem cfg (encode cfg (commandOf g arg) ++ rest) s = (s.setSeq (.awaitingArgument g)).offer arg := by
  simp [placeItem, opcodeGroup_opcode hcfg]

theorem placeItem_rejected {cfg : Config} {x : Byte} (h : opcodeGroup cfg x = none) (rest : List Byte) (s : State) :
    placeItem cfg (encode cfg (.rej x) ++ rest) s = (s.setSeq .awaitingOpcode).offer x := by
  simp [placeItem, h]

/-- Settles O17: the table word's bytes place the item's last byte, which the Consumer then takes. -/
theorem fetchWordRunsItsItem : Obligations.FetchWordRunsItsItem := by
  unfold Obligations.FetchWordRunsItsItem
  intro i s hi
  rw [State.withFetchWord, tableWordBytes_tableWord]
  obtain ⟨g, arg, rfl⟩ | ⟨x, rfl, hx⟩ := wellFormed_cases hi
  · rw [placeItem_command standard_wellFormed]
    cases g with
    | d => exact ⟨_, exec_d arg s, step_offer_argumentD arg rfl⟩
    | b => exact ⟨_, exec_b arg s, step_offer_argumentB arg rfl⟩
  · rw [placeItem_rejected hx]
    exact ⟨_, exec_rej x s, step_offer_rejected rfl hx⟩

end Sys2Proof.Machine
end

section
/-! The position and the output groups follow the bytes consumed (43_dispatcher.md R111, 44_commands.md R123). -/

namespace Sys2Proof.Machine

/-- From `s` to `t` the position and the output groups have moved as the items of these bytes move them. -/
def Follows (bytes : List Byte) (s t : State) : Prop :=
  t.seq = (decodeStream Config.standard s.seq bytes).2 ∧
  t.outd = finalOutd (decodeStream Config.standard s.seq bytes).1 s.outd ∧
  t.outb = finalOutb (decodeStream Config.standard s.seq bytes).1 s.outb

/-- The byte the Consumer takes in the next step, if it takes one. -/
def State.taken (s : State) : List Byte := if nextEvent s = .consume ∧ s.rdy = true then [s.br] else []

theorem Follows.trans {bs cs : List Byte} {s t u : State} (h : Follows bs s t) (h' : Follows cs t u) :
    Follows (bs ++ cs) s u := by
  obtain ⟨hseq, hd, hb⟩ := h
  obtain ⟨hseq', hd', hb'⟩ := h'
  rw [hseq] at hseq' hd' hb'
  refine ⟨?_, ?_, ?_⟩
  · rw [decodeStream_append, hseq']
  · rw [decodeStream_append, finalOutd_append, hd', hd]
  · rw [decodeStream_append, finalOutb_append, hb', hb]

theorem spelledBy_iff_follows (bytes : List Byte) (s : State) : SpelledBy bytes s ↔ Follows bytes State.reset s :=
  Iff.rfl

/-- `Dispatch` always answers, and moves the position and the groups as its byte says (R111). -/
theorem dispatch_follows (b : Byte) (s : State) : ∃ d, dispatch Config.standard b s = .next d ∧ Follows [b] s d := by
  rcases dispatch_cases Config.standard b s with ⟨g, hseq, hg, hd⟩ | ⟨hseq, hg, hd⟩ | ⟨hseq, hd⟩ | ⟨hseq, hd⟩ <;>
    refine ⟨_, hd, ?_⟩ <;> rw [Follows, hseq]
  · rw [decodeStream_opcode (nextItem_recognised hg)]
    exact ⟨rfl, rfl, rfl⟩
  · rw [decodeStream_rejected hg]
    exact ⟨hseq, rfl, rfl⟩
  · exact ⟨rfl, rfl, rfl⟩
  · exact ⟨rfl, rfl, operandB_eq_setWidth b⟩

theorem Effect.consume_follows {s t : State} (h : Effect Config.standard s .consume t) (hrdy : s.rdy = true) :
    Follows [s.br] s t := by
  obtain ⟨d, hd, hfollows⟩ := dispatch_follows s.br s
  cases (consume_ready hrdy hd).symm.trans h.perform_eq
  exact hfollows

theorem step_follows {s t : State} (h : step s = .next t) (hr : nextEvent s ≠ .reset) : Follows s.taken s t := by
  have heff := step_effect h
  unfold State.taken
  split
  · next htaken =>
    obtain ⟨hc, hrdy⟩ := htaken
    rw [hc] at heff
    exact heff.consume_follows hrdy
  · next hnone => exact heff.outputs_eq hr hnone

theorem consumedSinceReset_eq {s : State} (hr : nextEvent s ≠ .reset) (bytes : List Byte) :
    consumedSinceReset bytes s = bytes ++ s.taken := by
  unfold consumedSinceReset State.taken
  cases he : nextEvent s with
  | reset => exact absurd he hr
  | consume => cases s.rdy <;> simp
  | _ => simp

/-- Settles O60: a `Reset` starts afresh, and any other step adds the byte it takes. -/
theorem stepKeepsOutputsSpelledByConsumedBytes : Obligations.StepKeepsOutputsSpelledByConsumedBytes := by
  unfold Obligations.StepKeepsOutputsSpelledByConsumedBytes
  refine ⟨⟨rfl, rfl, rfl⟩, fun bytes s t hspell h => ?_⟩
  by_cases hr : nextEvent s = .reset
  · have heff := step_effect h
    rw [hr] at heff
    cases heff
    rw [consumedSinceReset, hr]
    exact ⟨rfl, rfl, rfl⟩
  · rw [consumedSinceReset_eq hr]
    exact Follows.trans ((spelledBy_iff_follows bytes s).1 hspell) (step_follows h hr)

theorem consumedBytes_succ {s t : State} (h : step s = .next t) (k : Nat) :
    consumedBytes (k + 1) s = s.taken ++ consumedBytes k t := by
  simp [consumedBytes, State.taken, h]

/-- An event among the first of a schedule that holds no `Reset` is none; nor is the poll on an empty schedule. -/
theorem nextEvent_ne_reset {s : State} {k : Nat} (h : .reset ∉ s.events.take (k + 1)) : nextEvent s ≠ .reset := by
  cases hes : s.events with
  | nil => simp [nextEvent, hes]
  | cons e es =>
    rw [nextEvent_cons hes]
    rintro rfl
    simp [hes] at h

/-- Settles O55, by induction on the number of steps. -/
theorem outputsFollowTheConsumedBytes : Obligations.OutputsFollowTheConsumedBytes := by
  unfold Obligations.OutputsFollowTheConsumedBytes
  intro k
  induction k with
  | zero =>
    intro s t _ h
    cases h
    exact ⟨rfl, rfl, rfl⟩
  | succ k ih =>
    intro s t hr h
    obtain ⟨u, hu, ht⟩ := run_succ_inv h
    have hrest : .reset ∉ u.events.take k := by
      rw [step_events hu]
      refine fun hmem => hr ?_
      cases hes : s.events with
      | nil => simp [hes] at hmem
      | cons e es =>
        rw [hes] at hmem
        exact List.mem_cons_of_mem e hmem
    rw [consumedBytes_succ hu]
    exact (step_follows hu (nextEvent_ne_reset hr)).trans (ih u t hrest ht)

theorem run_total (k : Nat) (s : State) : ∃ t, run k s = .next t := by
  induction k generalizing s with
  | zero => exact ⟨s, rfl⟩
  | succ k ih =>
    obtain ⟨t, ht⟩ := step_total s
    obtain ⟨u, hu⟩ := ih t
    exact ⟨u, (run_succ ht k).trans hu⟩

/-- Settles O48: with no byte consumed nothing moves, and the next byte is the pending command's argument. -/
theorem pendingOpcodeSurvivesReselection : Obligations.PendingOpcodeSurvivesReselection := by
  unfold Obligations.PendingOpcodeSurvivesReselection
  intro g s es hseq hr hnone
  obtain ⟨t, ht⟩ := run_total es.length (s.schedule es)
  obtain ⟨hseq', hd, hb⟩ :=
    outputsFollowTheConsumedBytes es.length (s.schedule es) t (fun hmem => hr (List.mem_of_mem_take hmem)) ht
  rw [hnone] at hseq' hd hb
  have hpending : t.seq = .awaitingArgument g := hseq'.trans hseq
  refine ⟨t, ht, hpending, hd, hb, fun b => ?_⟩
  cases g with
  | d => exact ⟨_, step_offer_argumentD b hpending, rfl, rfl, rfl, hb⟩
  | b => exact ⟨_, step_offer_argumentB b hpending, rfl, rfl, hd, operandB_eq_slice b⟩

end Sys2Proof.Machine
end

section
/-! Levels, bits and the shift register: what a list of half-edges spells, and what shifting it in leaves
(10_state.md R11, 30_encoding.md R60). -/

namespace Sys2Proof.Machine

theorem sampledLevels_length (levels : List Bool) : (sampledLevels levels).length = (levels.length + 1) / 2 := by
  induction levels using sampledLevels.induct with
  | case1 => rfl
  | case2 m => simp [sampledLevels]
  | case3 m x rest ih => simp only [sampledLevels, List.length_cons, ih]; omega

/-- A half-edge after an even number of them samples. -/
theorem sampledLevels_concat_of_even {levels : List Bool} (h : levels.length % 2 = 0) (m : Bool) :
    sampledLevels (levels ++ [m]) = sampledLevels levels ++ [m] := by
  induction levels using sampledLevels.induct with
  | case1 => rfl
  | case2 => cases h
  | case3 x y rest ih =>
    have hrest := ih (by simp only [List.length_cons] at h; omega)
    simp [sampledLevels, hrest]

/-- A half-edge after an odd number of them does not sample. -/
theorem sampledLevels_concat_of_odd {levels : List Bool} (h : levels.length % 2 = 1) (m : Bool) :
    sampledLevels (levels ++ [m]) = sampledLevels levels := by
  induction levels using sampledLevels.induct with
  | case1 => cases h
  | case2 => rfl
  | case3 x y rest ih =>
    have hrest := ih (by simp only [List.length_cons] at h; omega)
    simp [sampledLevels, hrest]

/-- After an odd number of half-edges the last one is the latest sample. -/
theorem take_sampledLevels_concat_last {levels : List Bool} {d : Bool} (hodd : levels.length % 2 = 1)
    (hlast : levels.getLast? = some d) :
    (sampledLevels levels).take (levels.length / 2) ++ [d] = sampledLevels levels := by
  obtain ⟨earlier, rfl⟩ := List.getLast?_eq_some_iff.1 hlast
  rw [List.length_append, List.length_singleton] at hodd ⊢
  rw [sampledLevels_concat_of_even (by omega), List.take_left' (sampledLevels_length earlier)]

theorem bitsValue_concat (bits : List Bool) (m : Bool) : bitsValue (bits ++ [m]) = 2 * bitsValue bits + m.toNat := by
  simp [bitsValue]

/-- One shift adds one bit to the low `k` bits of the register. -/
theorem shiftIn_toNat_mod_pow (sr : Byte) (din : Bool) {k : Nat} (hk : k ≤ 7) :
    (shiftIn sr din).toNat % 2 ^ (k + 1) = 2 * (sr.toNat % 2 ^ k) + din.toNat := by
  have hdin := Bool.toNat_lt din
  rw [shiftIn_toNat]
  interval_cases k <;> omega

end Sys2Proof.Machine
end

section
/-! The block agrees with what the wire has carried (10_state.md R28, R13 to R16). -/

namespace Sys2Proof.Machine

theorem agrees_of_idle {h : History} {s : State} (hen : s.en = h.selected) (hcnt : s.cnt = 0#4)
    (hlevels : h.levels = []) (hrdy : s.rdy = h.unread) (hbr : s.rdy = true → h.latest = some s.br) : Agrees h s := by
  refine ⟨hen, ?_, ?_, ?_, hrdy, hbr⟩ <;> simp [hcnt, hlevels, sampledLevels, bitsValue, Nat.mod_one]

/-- Settles O52: no byte is in flight and none is ready. -/
theorem agreementHoldsAtReset : Obligations.AgreementHoldsAtReset := by
  unfold Obligations.AgreementHoldsAtReset
  exact agrees_of_idle rfl rfl rfl rfl nofun

theorem observe_clkEdge_deselected {h : History} (hsel : h.selected = false) (m : Bool) :
    h.observe (.clkEdge m) = h := by
  simp [History.observe, hsel]

theorem observe_clkEdge_partway {h : History} (hsel : h.selected = true) (hlen : h.levels.length ≠ 15) (m : Bool) :
    h.observe (.clkEdge m) = { h with levels := h.levels ++ [m] } := by
  simp [History.observe, hsel, hlen]

theorem observe_clkEdge_last {h : History} (hsel : h.selected = true) (hlen : h.levels.length = 15) (m : Bool) :
    h.observe (.clkEdge m) =
      { h with
        levels := []
        latest := some (byteOfLevels (h.levels ++ [m]))
        unread := true
        sent := h.sent ++ [byteOfLevels (h.levels ++ [m])] } := by
  simp [History.observe, hsel, hlen]

theorem count_add_one_toNat {c : Count} (h : c ≠ 15#4) : (c + 1#4).toNat = c.toNat + 1 := by
  have hne : c.toNat ≠ 15 := fun heq => h (BitVec.eq_of_toNat_eq heq)
  have hlt := c.isLt
  rw [BitVec.toNat_add, BitVec.toNat_ofNat]
  omega

section

variable {h : History} {s : State}

/-- After a shifting half-edge the low bits of the register are all the bits sampled in this byte. -/
theorem Agrees.shiftIn_toNat (hA : Agrees h s) (hodd : s.cnt.toNat % 2 = 1) :
    (shiftIn s.sr s.din).toNat % 2 ^ (s.cnt.toNat / 2 + 1) = bitsValue (sampledLevels h.levels) := by
  obtain ⟨-, hcnt, hsr, hdin, -, -⟩ := hA
  have hlt := s.cnt.isLt
  rw [shiftIn_toNat_mod_pow _ _ (by omega), hsr, ← bitsValue_concat, hcnt,
    take_sampledLevels_concat_last (hcnt ▸ hodd) (hdin hodd)]

theorem Agrees.sampled (hA : Agrees h s) (hen : s.en = true) (heven : s.cnt.toNat % 2 = 0) (m : Bool) :
    Agrees (h.observe (.clkEdge m)) (s.sample m) := by
  obtain ⟨hsel, hcnt, hsr, -, hrdy, hbr⟩ := hA
  have hnext : (s.cnt + 1#4).toNat = s.cnt.toNat + 1 := count_add_one_toNat (ne_last_of_even heven)
  have hhalf : (s.cnt.toNat + 1) / 2 = s.cnt.toNat / 2 := by omega
  rw [observe_clkEdge_partway (hsel ▸ hen) (by omega)]
  refine ⟨hsel, ?_, ?_, ?_, hrdy, hbr⟩
  · simp [hnext, hcnt]
  · rw [sample_cnt, hnext, hhalf, sampledLevels_concat_of_even (hcnt ▸ heven),
      List.take_append_of_le_length (by rw [sampledLevels_length]; omega)]
    exact hsr
  · simp

theorem Agrees.shifted (hA : Agrees h s) (hen : s.en = true) (hodd : s.cnt.toNat % 2 = 1) (hlast : s.cnt ≠ 15#4)
    (m : Bool) : Agrees (h.observe (.clkEdge m)) s.shift := by
  have hbits := hA.shiftIn_toNat hodd
  obtain ⟨hsel, hcnt, -, -, hrdy, hbr⟩ := hA
  have hnext := count_add_one_toNat hlast
  have hhalf : (s.cnt.toNat + 1) / 2 = s.cnt.toNat / 2 + 1 := by omega
  have hlen : h.levels.length ≠ 15 := fun h15 => hlast (BitVec.eq_of_toNat_eq (hcnt.trans h15))
  rw [observe_clkEdge_partway (hsel ▸ hen) hlen]
  refine ⟨hsel, ?_, ?_, fun hodd' => ?_, hrdy, hbr⟩
  · simp [hnext, hcnt]
  · rw [shift_cnt, hnext, hhalf, sampledLevels_concat_of_odd (hcnt ▸ hodd),
      List.take_of_length_le (by rw [sampledLevels_length]; omega)]
    exact hbits
  · rw [shift_cnt, hnext] at hodd'
    omega

theorem Agrees.completed (hA : Agrees h s) (hen : s.en = true) (hlast : s.cnt = 15#4) (m : Bool) :
    Agrees (h.observe (.clkEdge m)) s.shift.completeByte := by
  have hodd : s.cnt.toNat % 2 = 1 := by rw [hlast]; rfl
  have hbits := hA.shiftIn_toNat hodd
  obtain ⟨hsel, hcnt, -, -, hrdy, hbr⟩ := hA
  rw [hlast] at hcnt hbits
  have hlen : h.levels.length = 15 := hcnt.symm
  have hbyte : byteOfLevels (h.levels ++ [m]) = shiftIn s.sr s.din := by
    apply BitVec.eq_of_toNat_eq
    rw [byteOfLevels, sampledLevels_concat_of_odd (by omega), ← hbits, BitVec.toNat_ofNat]
    exact (Nat.mod_mod _ _).trans (Nat.mod_eq_of_lt (shiftIn s.sr s.din).isLt)
  rw [observe_clkEdge_last (hsel ▸ hen) hlen]
  exact agrees_of_idle hsel (by simp [hlast]) rfl rfl fun _ => congrArg some hbyte

/-- Every effect keeps the agreement. -/
theorem Effect.agrees {cfg : Config} {t : State} {e : Event} (heff : Effect cfg s e t) (hA : Agrees h s) :
    Agrees (h.observe e) t := by
  have ⟨hsel, hcnt, hsr, hdin, hrdy, hbr⟩ := hA
  cases heff with
  | reset => exact agrees_of_idle rfl rfl rfl rfl nofun
  | selAssert => exact agrees_of_idle rfl rfl rfl rfl nofun
  | selDeassert => exact ⟨rfl, hcnt, hsr, hdin, hrdy, hbr⟩
  | ignored m hen =>
    rw [observe_clkEdge_deselected (hsel ▸ hen)]
    exact hA
  | sampled m hen heven => exact hA.sampled hen heven m
  | shifted m hen hodd hlast => exact hA.shifted hen hodd hlast m
  | completed m hen hlast => exact hA.completed hen hlast m
  | polled hnot => exact ⟨hsel, hcnt, hsr, hdin, hnot, hbr⟩
  | opcode | rejected | argumentD | argumentB => exact ⟨hsel, hcnt, hsr, hdin, rfl, nofun⟩
  | putStaged v hzero =>
    have hlevels : h.levels = [] := List.eq_nil_of_length_eq_zero (by rw [← hcnt, hzero]; rfl)
    exact agrees_of_idle hsel hzero hlevels hrdy hbr
  | queried | putRefused | got => exact hA

end

/-- Settles O53: taking the event off the schedule touches nothing the agreement speaks of. -/
theorem stepKeepsAgreementWithTheWire : Obligations.StepKeepsAgreementWithTheWire := by
  unfold Obligations.StepKeepsAgreementWithTheWire
  intro h s t hA hstep
  exact (step_effect hstep).agrees (s := s.advance) hA

/-- What every step over the allowed events keeps, beside the history of the wire, holds after a run over them. -/
theorem run_keeps {R : History → State → Prop} {allowed : Event → Prop}
    (hstep : ∀ h s t, allowed (nextEvent s) → R h s → step s = .next t → R (h.observe (nextEvent s)) t)
    (es rest : List Event) (h : History) (s : State) (hes : s.events = es ++ rest) (hall : ∀ e ∈ es, allowed e)
    (hR : R h s) : ∃ t, run es.length s = .next t ∧ t.events = rest ∧ R (h.after es) t := by
  induction es generalizing h s with
  | nil => exact ⟨s, rfl, hes, hR⟩
  | cons e es ih =>
    rw [List.cons_append] at hes
    rw [List.forall_mem_cons] at hall
    have he := nextEvent_cons hes
    obtain ⟨t, ht⟩ := step_total s
    have htail : t.events = es ++ rest := by rw [step_events ht, hes, List.tail_cons]
    have hRt := hstep h s t (he ▸ hall.1) hR ht
    rw [he] at hRt
    obtain ⟨u, hu, hrest, hRu⟩ := ih _ t htail hall.2 hRt
    exact ⟨u, (run_succ ht es.length).trans hu, hrest, hRu⟩

/-- After any run the block agrees with the history of the events taken. -/
theorem run_agrees {es rest : List Event} {h : History} {s : State} (hes : s.events = es ++ rest) (hA : Agrees h s) :
    ∃ t, run es.length s = .next t ∧ t.events = rest ∧ Agrees (h.after es) t :=
  run_keeps (allowed := fun _ => True) (fun h s t _ => stepKeepsAgreementWithTheWire h s t) es rest h s hes
    (fun _ _ => trivial) hA

/-- Settles O54: from reset the block agrees with the empty history. -/
theorem noPartialByteIsExposed : Obligations.NoPartialByteIsExposed := by
  unfold Obligations.NoPartialByteIsExposed
  intro es k hk
  have hsplit : (State.reset.schedule es).events = es.take k ++ es.drop k := (List.take_append_drop k es).symm
  obtain ⟨t, ht, -, -, -, -, -, -, hbr⟩ := run_agrees hsplit agreementHoldsAtReset
  rw [List.length_take_of_le hk] at ht
  exact ⟨t, ht, hbr⟩

end Sys2Proof.Machine
end

section
/-! Local calls among the half-edges of a byte (42_transport_access.md R103). -/

namespace Sys2Proof.Machine

/-- The levels at the 16 half-edges that carry `b`, in order. -/
def byteLevels (b x : Byte) : List Bool := (List.zip (wireBits b) (wireBits x)).flatMap fun p => [p.1, p.2]

theorem byteEvents_eq (b x : Byte) : byteEvents b x = (byteLevels b x).map .clkEdge := rfl

@[simp] theorem sampledLevels_byteLevels (b x : Byte) : sampledLevels (byteLevels b x) = wireBits b := rfl

@[simp] theorem byteLevels_length (b x : Byte) : (byteLevels b x).length = 16 := rfl

theorem bitsValue_wireBits (b : Byte) : bitsValue (wireBits b) = b.toNat := by
  have hlt := b.isLt
  simp only [bitsValue, wireBits, List.foldl_cons, List.foldl_nil, BitVec.getLsbD, Nat.toNat_testBit]
  omega

theorem byteOfLevels_byteLevels (b x : Byte) : byteOfLevels (byteLevels b x) = b := by
  apply BitVec.eq_of_toNat_eq
  rw [byteOfLevels, sampledLevels_byteLevels, bitsValue_wireBits]
  simp

theorem after_append (h : History) (es es' : List Event) : h.after (es ++ es') = (h.after es).after es' :=
  List.foldl_append

/-- Fewer than 16 half-edges in one window leave a byte in flight. -/
theorem after_partway {h : History} (hsel : h.selected = true) (hlevels : h.levels = []) {levels : List Bool}
    (hlen : levels.length ≤ 15) : h.after (levels.map .clkEdge) = { h with levels := levels } := by
  induction levels using List.reverseRecOn with
  | nil => rw [List.map_nil, after_nil, ← hlevels]
  | append_singleton levels m ih =>
    rw [List.length_append, List.length_singleton] at hlen
    rw [List.map_append, after_append, ih (by omega)]
    exact observe_clkEdge_partway (h := { h with levels := levels }) hsel (by simp only; omega) m

/-- The 16 half-edges of a byte complete it. -/
theorem after_byteEvents {h : History} (hsel : h.selected = true) (hlevels : h.levels = []) (b x : Byte) :
    h.after (byteEvents b x) = { h with levels := [], latest := some b, unread := true, sent := h.sent ++ [b] } := by
  have hsplit := List.dropLast_concat_getLast (l := byteLevels b x) (List.ne_nil_of_length_pos (by simp))
  have hlen : (byteLevels b x).dropLast.length = 15 := by simp
  rw [byteEvents_eq, ← hsplit, List.map_append, after_append, after_partway hsel hlevels hlen.le]
  refine (observe_clkEdge_last (h := { h with levels := (byteLevels b x).dropLast }) hsel hlen _).trans ?_
  rw [hsplit, byteOfLevels_byteLevels]

theorem observe_local {e : Event} (he : e.isLocal = true) (h : History) :
    ∃ u, h.observe e = { h with unread := u } := by
  cases e with
  | consume => exact ⟨false, rfl⟩
  | isBusy | put | get => exact ⟨h.unread, rfl⟩
  | reset | selAssert | selDeassert | clkEdge => cases he

/-- What an event makes of the rest of the history does not turn on whether the latest byte is unread. -/
theorem observe_unread (h : History) (u : Bool) (e : Event) :
    ∃ u', { h with unread := u }.observe e = { h.observe e with unread := u' } := by
  cases e with
  | clkEdge m =>
    cases hsel : h.selected with
    | false => exact ⟨u, by simp [History.observe, hsel]⟩
    | true =>
      by_cases hlen : h.levels.length = 15
      · exact ⟨true, by simp [History.observe, hsel, hlen]⟩
      · exact ⟨u, by simp [History.observe, hsel, hlen]⟩
  | _ => exact ⟨_, rfl⟩

/-- Events of the local side change nothing of the history but whether the latest byte is unread. -/
theorem after_filter_master (es : List Event) (h : History) (u : Bool) :
    ∃ u', { h with unread := u }.after es = { h.after (es.filter fun e => !e.isLocal) with unread := u' } := by
  induction es generalizing h u with
  | nil => exact ⟨u, rfl⟩
  | cons e es ih =>
    rw [after_cons]
    cases hlocal : e.isLocal with
    | true =>
      obtain ⟨u', hu'⟩ := observe_local hlocal { h with unread := u }
      rw [hu', List.filter_cons_of_neg (by simp [hlocal])]
      exact ih h u'
    | false =>
      obtain ⟨u', hu'⟩ := observe_unread h u e
      rw [hu', List.filter_cons_of_pos (by simp [hlocal]), after_cons]
      exact ih (h.observe e) u'

/-- As long as no `SelAssert` or `Reset` comes, `BR` is the latest byte completed, consumed or not. -/
theorem step_keeps_latest {h : History} {s t : State} (hev : nextEvent s ≠ .selAssert ∧ nextEvent s ≠ .reset)
    (hR : Agrees h s ∧ h.latest = some s.br) (hstep : step s = .next t) :
    Agrees (h.observe (nextEvent s)) t ∧ (h.observe (nextEvent s)).latest = some t.br := by
  obtain ⟨hA, hlatest⟩ := hR
  have hAt := stepKeepsAgreementWithTheWire h s t hA hstep
  refine ⟨hAt, ?_⟩
  have heff := step_effect hstep
  obtain ⟨hsel, hcnt, -⟩ := hA
  cases he : nextEvent s with
  | reset => exact absurd he hev.2
  | selAssert => exact absurd he hev.1
  | clkEdge m =>
    rw [he] at heff hAt
    have hbr := heff.br_eq
    by_cases hlast : s.en = true ∧ s.cnt = 15#4
    · obtain ⟨-, -, -, -, -, hready⟩ := hAt
      exact hready (heff.rdy_eq.trans (if_pos hlast))
    · rw [hbr.trans (if_neg hlast)]
      by_cases hen : h.selected = true
      · rw [observe_clkEdge_partway hen fun h15 => hlast ⟨hsel.trans hen, BitVec.eq_of_toNat_eq (hcnt.trans h15)⟩]
        exact hlatest
      · rw [observe_clkEdge_deselected (by simpa using hen)]
        exact hlatest
  | _ =>
    rw [he] at heff
    rw [heff.br_eq]
    exact hlatest

/-- A list of events whose master's part is half-edges holds no other event of the master or the platform. -/
theorem ne_of_filter_master {es : List Event} {levels : List Bool}
    (h : (es.filter fun e => !e.isLocal) = levels.map .clkEdge) {e : Event} (he : e ∈ es) :
    e ≠ .selAssert ∧ e ≠ .reset := by
  have hmem (hm : e.isLocal = false) : ∃ m ∈ levels, Event.clkEdge m = e := by
    rw [← List.mem_map, ← h, List.mem_filter]
    exact ⟨he, by simp [hm]⟩
  constructor <;> rintro rfl <;> simpa using hmem rfl

/-- A history of a window in which no half-edge has come, with the mailbox as it is in `s`. -/
def History.opened (s : State) : History where
  selected := true
  levels := []
  latest := some s.br
  unread := s.rdy
  sent := []

/-- Settles O38: the history sees the half-edges of the byte alone, and `BR` keeps to the history. -/
theorem localCallsNeverCorruptAByte : Obligations.LocalCallsNeverCorruptAByte := by
  unfold Obligations.LocalCallsNeverCorruptAByte
  intro b x s es hen hcnt hfilter
  have hstart : Agrees (.opened s) s ∧ (History.opened s).latest = some s.br :=
    ⟨agrees_of_idle hen hcnt rfl rfl fun _ => rfl, rfl⟩
  obtain ⟨t, ht, -, hA, hlatest⟩ :=
    run_keeps (R := fun h s => Agrees h s ∧ h.latest = some s.br) (fun _ _ _ => step_keeps_latest) es []
      (.opened s) (s.schedule es) (by simp) (fun _ => ne_of_filter_master (hfilter.trans (byteEvents_eq b x))) hstart
  obtain ⟨u, hu⟩ := after_filter_master es (.opened s) s.rdy
  have hafter : (History.opened s).after es = { History.opened s with latest := some b, unread := u, sent := [b] } := by
    rw [hfilter, after_byteEvents rfl rfl] at hu
    exact hu
  rw [hafter] at hA hlatest
  obtain ⟨hen', hcnt', -⟩ := hA
  exact ⟨t, ht, (Option.some.inj hlatest).symm, BitVec.eq_of_toNat_eq hcnt', hen'⟩

end Sys2Proof.Machine
end

section
/-! The half-edges of one byte, taken from the start of a byte while selected (41_transport_shift.md R90 to R96). -/

namespace Sys2Proof.Machine

/-- Settles O31, by induction on the half-edges. -/
theorem deselectedHalfEdgesChangeNothing : Obligations.DeselectedHalfEdgesChangeNothing := by
  unfold Obligations.DeselectedHalfEdgesChangeNothing
  intro levels s rest hen hes
  induction levels generalizing s with
  | nil => exact ⟨s, rfl, by rw [← show s.events = rest from hes]⟩
  | cons m levels ih =>
    obtain ⟨t, ht, heq⟩ := ih { s with events := levels.map .clkEdge ++ rest, result := none } hen rfl
    exact ⟨t, (run_cons hes (.ignored m hen) levels.length).trans ht, heq⟩

theorem take_concat_getLast {bits : List Bool} {k : Nat} (h : bits.length = k + 1) (d : Bool) :
    bits.take k ++ [bits.getLast?.getD d] = bits := by
  have hne : bits ≠ [] := List.ne_nil_of_length_eq_add_one h
  rw [List.getLast?_eq_some_getLast hne, Option.getD_some, show k = bits.length - 1 by omega, ← List.dropLast_eq_take,
    List.dropLast_concat_getLast]

/-- Shifting in all but the last bit and then the last one is shifting in all of them. -/
theorem shiftIn_foldl_take {bits : List Bool} {k : Nat} (h : bits.length = k + 1) (d : Bool) (sr : Byte) :
    shiftIn ((bits.take k).foldl shiftIn sr) (bits.getLast?.getD d) = bits.foldl shiftIn sr := by
  conv_rhs => rw [← take_concat_getLast h d, List.foldl_concat]

theorem foldl_shiftIn_toNat (bits : List Bool) (sr : Byte) :
    (bits.foldl shiftIn sr).toNat = (sr.toNat * 2 ^ bits.length + bitsValue bits) % 256 := by
  induction bits using List.reverseRecOn with
  | nil =>
    have hlt := sr.isLt
    simp [bitsValue]
    omega
  | append_singleton bits m ih =>
    have hpow : sr.toNat * 2 ^ (bits.length + 1) = 2 * (sr.toNat * 2 ^ bits.length) := by ring
    rw [List.foldl_concat, shiftIn_toNat_mod, ih, bitsValue_concat, List.length_append, List.length_singleton, hpow]
    omega

/-- After eight shifts nothing of the old register is left. -/
theorem foldl_shiftIn_wireBits (b sr : Byte) : (wireBits b).foldl shiftIn sr = b := by
  have hlt := b.isLt
  apply BitVec.eq_of_toNat_eq
  rw [foldl_shiftIn_toNat, bitsValue_wireBits, show (wireBits b).length = 8 from rfl]
  omega

/-- After up to seven shifts the top bit is a bit of the old register. -/
theorem serialOut_foldl_shiftIn (bits : List Bool) (sr : Byte) (h : bits.length ≤ 7) :
    serialOut (bits.foldl shiftIn sr) = sr.getLsbD (7 - bits.length) := by
  induction bits generalizing sr with
  | nil => rfl
  | cons m bits ih =>
    rw [List.length_cons] at h ⊢
    rw [List.foldl_cons, ih _ (by omega), show 7 - bits.length = 7 - (bits.length + 1) + 1 by omega,
      getLsbD_shiftIn_succ _ _ (by omega)]

/-- The state part-way through a byte begun in `s`: the bits sampled and shifted so far stand in `SR`, the latest one in
`DIN`. -/
def State.partway (s : State) (levels : List Bool) (rest : List Event) : State :=
  { s with
    sr := ((sampledLevels levels).take (levels.length / 2)).foldl shiftIn s.sr
    din := (sampledLevels levels).getLast?.getD s.din
    cnt := BitVec.ofNat 4 levels.length
    events := rest
    result := if levels = [] then s.result else none }

theorem partway_cnt_toNat {levels : List Bool} (hlen : levels.length < 16) (s : State) (rest : List Event) :
    (s.partway levels rest).cnt.toNat = levels.length :=
  (BitVec.toNat_ofNat _ _).trans (Nat.mod_eq_of_lt hlen)

/-- The half-edge after fewer than 15 of them samples or shifts. -/
theorem partway_clkEdge {s : State} (hen : s.en = true) {levels : List Bool} (hlen : levels.length < 15) (m : Bool)
    (es rest : List Event) :
    Effect Config.standard { s.partway levels es with events := rest, result := none } (.clkEdge m)
      (s.partway (levels ++ [m]) rest) := by
  have hcnt := partway_cnt_toNat (levels := levels) (by omega) s es
  rcases Nat.mod_two_eq_zero_or_one levels.length with heven | hodd
  · have hhalf : (levels.length + 1) / 2 = levels.length / 2 := by omega
    have htake := List.take_append_of_le_length (l₂ := [m])
      (show levels.length / 2 ≤ (sampledLevels levels).length by rw [sampledLevels_length, hhalf])
    have heq : s.partway (levels ++ [m]) rest =
        State.sample { s.partway levels es with events := rest, result := none } m := by
      simp [State.partway, State.sample, sampledLevels_concat_of_even heven, hhalf, htake, BitVec.ofNat_add]
    rw [heq]
    exact .sampled m hen (hcnt ▸ heven)
  · have hhalf : (levels.length + 1) / 2 = levels.length / 2 + 1 := by omega
    have hsampled : (sampledLevels levels).length = levels.length / 2 + 1 := by rw [sampledLevels_length, hhalf]
    have heq : s.partway (levels ++ [m]) rest =
        State.shift { s.partway levels es with events := rest, result := none } := by
      simp [State.partway, State.shift, sampledLevels_concat_of_odd hodd, hhalf, List.take_of_length_le hsampled.le,
        shiftIn_foldl_take hsampled, BitVec.ofNat_add]
    rw [heq]
    refine .shifted m hen (hcnt ▸ hodd) fun h15 => ?_
    have h15' : (s.partway levels es).cnt.toNat = 15 := congrArg BitVec.toNat h15
    omega

/-- Fewer than 16 half-edges from the start of a byte. -/
theorem run_partway {s : State} (hen : s.en = true) (hcnt : s.cnt = 0#4) {levels : List Bool}
    (hlen : levels.length < 16) {rest : List Event} (hes : s.events = levels.map .clkEdge ++ rest) :
    run levels.length s = .next (s.partway levels rest) := by
  induction levels using List.reverseRecOn generalizing rest with
  | nil =>
    have heq : s.partway [] rest = s := by simp [State.partway, sampledLevels, ← hcnt, ← show s.events = rest from hes]
    rw [heq]
    rfl
  | append_singleton levels m ih =>
    rw [List.length_append, List.length_singleton] at hlen ⊢
    rw [run_add (ih (by omega) (rest := .clkEdge m :: rest) (by simpa using hes)),
      run_cons rfl (partway_clkEdge hen (by omega) m _ rest)]
    rfl

/-- All 16 half-edges from the start of a byte: the bits sampled have gone through `SR`, which `BR` copies. -/
theorem run_wholeByte {s : State} (hen : s.en = true) (hcnt : s.cnt = 0#4) {levels : List Bool}
    (hlen : levels.length = 16) {rest : List Event} (hes : s.events = levels.map .clkEdge ++ rest) :
    run 16 s = .next { s with
      sr := (sampledLevels levels).foldl shiftIn s.sr
      din := (sampledLevels levels).getLast?.getD s.din
      cnt := 0#4
      br := (sampledLevels levels).foldl shiftIn s.sr
      rdy := true
      events := rest
      result := none } := by
  have hsplit := List.dropLast_concat_getLast (l := levels) (List.ne_nil_of_length_eq_add_one hlen)
  generalize levels.dropLast = earlier at hsplit
  generalize levels.getLast _ = m at hsplit
  subst hsplit
  have h15 : earlier.length = 15 := by simpa using hlen
  have hsampled : (sampledLevels earlier).length = 7 + 1 := by rw [sampledLevels_length, h15]
  have hrun := run_partway hen hcnt (levels := earlier) (by omega) (rest := .clkEdge m :: rest) (by simpa using hes)
  have hlast : (s.partway earlier (.clkEdge m :: rest)).cnt = 15#4 := by simp [State.partway, h15]
  rw [h15] at hrun
  have heff : Effect Config.standard { s.partway earlier (.clkEdge m :: rest) with events := rest, result := none }
    (.clkEdge m) _ := .completed m hen hlast
  rw [run_add hrun 1, run_cons rfl heff, run_zero, sampledLevels_concat_of_odd (by omega)]
  simp [State.completeByte, State.shift, State.partway, h15, shiftIn_foldl_take hsampled]

/-- Settles O32: eight bits shifted in are the byte. -/
theorem byteArrivesMostSignificantBitFirst : Obligations.ByteArrivesMostSignificantBitFirst := by
  unfold Obligations.ByteArrivesMostSignificantBitFirst
  intro b x s rest hen hcnt hes
  rw [run_wholeByte hen hcnt (byteLevels_length b x) hes, sampledLevels_byteLevels, foldl_shiftIn_wireBits]
  rfl

/-- Settles O33: after `k` half-edges `k / 2` bits have been shifted in. -/
theorem oldShiftRegisterIsShiftedOut : Obligations.OldShiftRegisterIsShiftedOut := by
  unfold Obligations.OldShiftRegisterIsShiftedOut
  intro b x s rest hen hcnt hes
  refine ⟨fun k hk => ?_, ?_⟩
  · have hlen : ((byteLevels b x).take k).length = k := List.length_take_of_le (by rw [byteLevels_length]; omega)
    have hsplit : s.events =
        ((byteLevels b x).take k).map .clkEdge ++ (((byteLevels b x).drop k).map .clkEdge ++ rest) := by
      rw [hes, byteEvents_eq, ← List.append_assoc, ← List.map_append, List.take_append_drop]
    have hrun := run_partway hen hcnt (by omega) hsplit
    rw [hlen] at hrun
    have hshifted : ((sampledLevels ((byteLevels b x).take k)).take (k / 2)).length = k / 2 :=
      List.length_take_of_le (by rw [sampledLevels_length, hlen]; omega)
    refine ⟨_, hrun, (if_pos hen).trans (congrArg some ?_)⟩
    rw [State.partway, hlen, serialOut_foldl_shiftIn _ _ (by omega), hshifted]
  · exact ⟨_, byteArrivesMostSignificantBitFirst b x s rest hen hcnt hes, if_pos hen⟩

/-- Settles O45: the cut byte reaches `SR`, `DIN` and `CNT` alone, and the new window starts a byte afresh. -/
theorem byteCutShortIsDiscarded : Obligations.ByteCutShortIsDiscarded := by
  unfold Obligations.ByteCutShortIsDiscarded
  intro levels s rest hen hcnt hlen hes
  refine ⟨_, (run_add (run_partway hen hcnt hlen hes) 1).trans (run_cons rfl .selDeassert 0), rfl, ?_⟩
  rintro b x rest' rfl
  exact ⟨_, (run_cons rfl .selAssert 16).trans (byteArrivesMostSignificantBitFirst b x _ rest' rfl rfl rfl), rfl⟩

end Sys2Proof.Machine
end

section
/-! A whole item over the wire (44_commands.md R120 to R122), and a transport that stays busy (70_reset_and_hazards.md
R175). -/

namespace Sys2Proof.Machine

/-- The state a byte has arrived in, but for the mailbox. -/
def State.received (s : State) (b : Byte) (rest : List Event) : State :=
  { s with sr := b, din := b.getLsbD 0, cnt := 0#4, events := rest, result := none }

/-- A byte clocked in and then consumed is a byte offered to the Consumer. -/
theorem run_byte_step {s t : State} (hen : s.en = true) (hcnt : s.cnt = 0#4) {b x : Byte} {rest : List Event}
    (hes : s.events = byteEvents b x ++ .consume :: rest) (h : step ((s.received b rest).offer b) = .next t) :
    run 17 s = .next t := by
  rw [run_add (byteArrivesMostSignificantBitFirst b x s _ hen hcnt hes) 1, run_one]
  exact h

/-- Settles O34: a command's two bytes take the two rows of the dispatcher, a rejected byte its one. -/
theorem itemsSentOverTheWireAreExecuted : Obligations.ItemsSentOverTheWireAreExecuted := by
  unfold Obligations.ItemsSentOverTheWireAreExecuted
  intro i x s rest hi hen hcnt hseq hes
  obtain ⟨g, arg, rfl⟩ | ⟨y, rfl, hy⟩ := wellFormed_cases hi
  · rw [encode_commandOf] at hes ⊢
    have hopcode := run_byte_step hen hcnt (rest := byteEvents arg x ++ .consume :: rest) (by simpa using hes)
      (step_offer_opcode hseq (opcodeGroup_opcode standard_wellFormed g))
    cases g with
    | d =>
      exact ⟨_, _, exec_d arg s,
        (run_add hopcode 17).trans (run_byte_step hen rfl rfl (step_offer_argumentD arg rfl)),
        rfl, rfl, rfl, rfl, rfl, rfl, hen, rfl, rfl⟩
    | b =>
      exact ⟨_, _, exec_b arg s,
        (run_add hopcode 17).trans (run_byte_step hen rfl rfl (step_offer_argumentB arg rfl)),
        rfl, rfl, rfl, rfl, rfl, rfl, hen, rfl, rfl⟩
  · exact ⟨_, _, exec_rej y s,
      run_byte_step hen hcnt (by simpa using hes) (step_offer_rejected hseq hy),
      rfl, rfl, rfl, hseq, rfl, rfl, hen, rfl, rfl⟩

/-- A deselected transport with a byte in flight keeps `CNT` and `SR` through any event but `SelAssert` and `Reset`. -/
theorem step_keeps_stuck {c : Count} {r : Byte} (hc : c ≠ 0#4) {s t : State}
    (hev : nextEvent s ≠ .selAssert ∧ nextEvent s ≠ .reset) (hstuck : s.cnt = c ∧ s.sr = r ∧ s.en = false)
    (hstep : step s = .next t) : t.cnt = c ∧ t.sr = r ∧ t.en = false := by
  obtain ⟨hcnt, hsr, hen⟩ := hstuck
  have heff := step_effect hstep
  cases he : nextEvent s with
  | reset => exact absurd he hev.2
  | selAssert => exact absurd he hev.1
  | _ =>
    rw [he] at heff
    simp [heff.cnt_eq, heff.sr_eq, heff.en_eq, hcnt, hsr, hen, hc]

/-- Settles O46: what keeps the transport stuck also keeps it busy. -/
theorem busySticksUntilReselect : Obligations.BusySticksUntilReselect := by
  unfold Obligations.BusySticksUntilReselect
  intro s es hen hcnt hsel hreset
  have hallowed : ∀ e ∈ es, e ≠ .selAssert ∧ e ≠ .reset := fun e he =>
    ⟨fun heq => hsel (heq ▸ he), fun heq => hreset (heq ▸ he)⟩
  obtain ⟨t, ht, -, hcnt', hsr', hen'⟩ :=
    run_keeps (R := fun _ t => t.cnt = s.cnt ∧ t.sr = s.sr ∧ t.en = false) (fun _ _ _ => step_keeps_stuck hcnt) es []
      .initial (s.schedule es) (by simp) hallowed ⟨rfl, rfl, hen⟩
  have hbusy : t.cnt ≠ 0#4 := hcnt' ▸ hcnt
  refine ⟨t, ht, hcnt', hsr', hen', ?_, fun v => ?_⟩
  · exact ⟨_, step_of_effect rfl .queried, congrArg (some ∘ Result.isBusy) ((busy_iff t).2 hbusy)⟩
  · exact ⟨_, step_of_effect rfl (.putRefused v hbusy), rfl, rfl⟩

end Sys2Proof.Machine
end

section
/-! Events that come together (60_exceptions.md R139): both orders of a pair, and input lines that move at once. -/

namespace Sys2Proof.Machine

/-- A schedule of two events, each with its effect. -/
theorem run_pair {s t u : State} {e f : Event}
    (he : Effect Config.standard { s with events := [f], result := none } e t)
    (hf : Effect Config.standard { t with events := [], result := none } f u) :
    run 2 (s.schedule [e, f]) = .next u :=
  (run_cons (s := s.schedule [e, f]) rfl he 1).trans (run_cons he.events_eq hf 0)

theorem effect_total (cfg : Config) (e : Event) (s : State) : ∃ t, Effect cfg s e t := by
  obtain ⟨t, -, heff⟩ := perform_total cfg e s
  exact ⟨t, heff⟩

/-- Bytes determine where the position and the output groups go. -/
theorem Follows.unique {bytes : List Byte} {s t d : State} (ht : Follows bytes s t) (hd : Follows bytes s d) :
    t.seq = d.seq ∧ t.outd = d.outd ∧ t.outb = d.outb := by
  obtain ⟨hseq, houtd, houtb⟩ := ht
  obtain ⟨hseq', houtd', houtb'⟩ := hd
  exact ⟨hseq.trans hseq'.symm, houtd.trans houtd'.symm, houtb.trans houtb'.symm⟩

/-- The 16th half-edge and a deselect: the byte completes, or the half-edge is not honoured. -/
theorem lastHalfEdge_and_selDeassert (m : Bool) {s : State} (hen : s.en = true) (hcnt : s.cnt = 15#4) :
    (∃ t, run 2 (s.schedule [.clkEdge m, .selDeassert]) = .next t ∧
      t.rdy = true ∧ t.br = t.sr ∧ t.en = false ∧ t.cnt = 0#4) ∧
    run 2 (s.schedule [.selDeassert, .clkEdge m]) = .next { s with en := false, events := [], result := none } :=
  ⟨⟨_, run_pair (.completed m hen hcnt) .selDeassert, rfl, rfl, rfl, congrArg (· + 1#4) hcnt⟩,
    run_pair .selDeassert (.ignored m rfl)⟩

/-- A completion and the Consume of the byte before it: both bytes are dispatched in turn, or the newer one alone. -/
theorem completion_and_consume (m : Bool) {s : State} (hen : s.en = true) (hcnt : s.cnt = 15#4) (hrdy : s.rdy = true) :
    (∃ t d, run 2 (s.schedule [.consume, .clkEdge m]) = .next t ∧ dispatch Config.standard s.br s = .next d ∧
      t.rdy = true ∧ t.br = t.sr ∧ t.seq = d.seq ∧ t.outd = d.outd ∧ t.outb = d.outb) ∧
    (∃ t d, run 2 (s.schedule [.clkEdge m, .consume]) = .next t ∧ dispatch Config.standard t.br s = .next d ∧
      t.rdy = false ∧ t.br = t.sr ∧ t.seq = d.seq ∧ t.outd = d.outd ∧ t.outb = d.outb) := by
  constructor
  · obtain ⟨t, ht⟩ := effect_total Config.standard .consume { s with events := [.clkEdge m], result := none }
    obtain ⟨d, hd, hfollows⟩ := dispatch_follows s.br s
    exact ⟨_, d, run_pair ht (.completed m (ht.en_eq.trans hen) (ht.cnt_eq.trans hcnt)), hd, rfl, rfl,
      (ht.consume_follows hrdy).unique hfollows⟩
  · obtain ⟨t, ht⟩ := effect_total Config.standard .consume { s.shift.completeByte with events := [], result := none }
    obtain ⟨d, hd, hfollows⟩ := dispatch_follows t.br s
    have hbr : t.br = s.shift.completeByte.br := ht.br_eq
    have htaken : Follows [t.br] s t := hbr ▸ ht.consume_follows rfl
    exact ⟨t, d, run_pair (.completed m hen hcnt) ht, hd, ht.rdy_eq, hbr.trans ht.sr_eq.symm, htaken.unique hfollows⟩

/-- A re-select and a Consume: the ready byte is dispatched, or dropped. -/
theorem selAssert_and_consume {s : State} (hrdy : s.rdy = true) :
    (∃ t d, run 2 (s.schedule [.consume, .selAssert]) = .next t ∧ dispatch Config.standard s.br s = .next d ∧
      t.rdy = false ∧ t.seq = d.seq ∧ t.outd = d.outd ∧ t.outb = d.outb) ∧
    (∃ t, run 2 (s.schedule [.selAssert, .consume]) = .next t ∧
      t.rdy = false ∧ t.seq = s.seq ∧ t.outd = s.outd ∧ t.outb = s.outb) := by
  constructor
  · obtain ⟨t, ht⟩ := effect_total Config.standard .consume { s with events := [.selAssert], result := none }
    obtain ⟨d, hd, hfollows⟩ := dispatch_follows s.br s
    exact ⟨_, d, run_pair ht .selAssert, hd, rfl, (ht.consume_follows hrdy).unique hfollows⟩
  · exact ⟨_, run_pair .selAssert (.polled rfl), rfl, rfl, rfl, rfl⟩

/-- The first half-edge of a byte and a Put: the byte is staged before the shift, or refused. -/
theorem firstHalfEdge_and_put (m : Bool) (v : Byte) {s : State} (hen : s.en = true) (hcnt : s.cnt = 0#4) :
    (∃ t u, step (s.schedule [.put v, .clkEdge m]) = .next t ∧ t.result = some (.put .ok) ∧
      step t = .next u ∧ u.sr = v ∧ u.din = m ∧ u.cnt = 1#4) ∧
    (∃ t, run 2 (s.schedule [.clkEdge m, .put v]) = .next t ∧
      t.result = some (.put .tryLater) ∧ t.sr = s.sr ∧ t.din = m ∧ t.cnt = 1#4) := by
  have heven : s.cnt.toNat % 2 = 0 := by rw [hcnt]; rfl
  have hone : s.cnt + 1#4 = 1#4 := by rw [hcnt]; rfl
  constructor
  · exact ⟨_, _, step_of_effect rfl (.putStaged v hcnt), rfl, step_of_effect rfl (.sampled m hen heven), rfl, rfl, hone⟩
  · have hbusy : s.cnt + 1#4 ≠ 0#4 := by rw [hone]; decide
    exact ⟨_, run_pair (.sampled m hen heven) (.putRefused v hbusy), rfl, rfl, rfl, hone⟩

/-- Settles O50: the four pairs. -/
theorem bothOrdersOfSimultaneousEvents : Obligations.BothOrdersOfSimultaneousEvents := by
  unfold Obligations.BothOrdersOfSimultaneousEvents
  exact ⟨fun m _ => lastHalfEdge_and_selDeassert m, fun m _ => completion_and_consume m, fun _ => selAssert_and_consume,
    fun m v _ => firstHalfEdge_and_put m v⟩

/-- The event of one line's transition, when the data line's level at that moment is `sdi`. -/
def lineEvents (old new : Pins) (sdi : Bool) (l : Line) : List Event := (moveLine new l { old with sdi := sdi }).2

/-- A line's event turns on its own levels and, for `SCK`, on the data line's: moving another line changes neither. -/
theorem lineEvents_moveLine {l l' : Line} (hne : l ≠ l') (old new : Pins) (sdi : Bool) :
    lineEvents (moveLine new l old).1 new sdi l' = lineEvents old new sdi l' := by
  cases l <;> cases l' <;> simp [lineEvents, moveLine] at hne ⊢

/-- Only `SCK`'s event shows the level of the data line. -/
theorem lineEvents_of_ne_sck {l : Line} (hne : l ≠ .sck) (old new : Pins) (m m' : Bool) :
    lineEvents old new m l = lineEvents old new m' l := by
  cases l with
  | sck => exact absurd rfl hne
  | selN | sdi | rst => rfl

theorem moveLine_sdi (old new : Pins) (l : Line) :
    (moveLine new l old).1.sdi = old.sdi ∨ (moveLine new l old).1.sdi = new.sdi := by
  cases l with
  | sdi => exact .inr rfl
  | selN | sck | rst => exact .inl rfl

/-- Lines taken once each, in any order, issue the events of their own transitions; `SCK` shows the data line's level
from before or after that line's own move. -/
theorem pinEvents_eq_flatMap (new : Pins) {order : List Line} (hnodup : order.Nodup) (old : Pins) :
    ∃ m, (m = old.sdi ∨ m = new.sdi) ∧ pinEvents new order old = order.flatMap (lineEvents old new m) := by
  induction order generalizing old with
  | nil => exact ⟨old.sdi, .inl rfl, rfl⟩
  | cons l ls ih =>
    obtain ⟨hnot, hnodup⟩ := List.nodup_cons.1 hnodup
    obtain ⟨m, hm, hls⟩ := ih hnodup (moveLine new l old).1
    have hrest : ls.flatMap (lineEvents (moveLine new l old).1 new m) = ls.flatMap (lineEvents old new m) :=
      List.flatMap_congr fun l' hl' => lineEvents_moveLine (by rintro rfl; exact hnot hl') old new m
    have hhead : (moveLine new l old).2 = lineEvents old new old.sdi l := rfl
    rw [pinEvents, hls, hrest, hhead]
    by_cases hsck : l = .sck
    · subst hsck
      refine ⟨old.sdi, .inl rfl, congrArg (lineEvents old new old.sdi .sck ++ ·) ?_⟩
      exact List.flatMap_congr fun l' hl' => lineEvents_of_ne_sck (by rintro rfl; exact hnot hl') old new _ _
    · refine ⟨m, ?_, congrArg (· ++ ls.flatMap (lineEvents old new m)) (lineEvents_of_ne_sck hsck old new _ _)⟩
      rcases hm with rfl | rfl
      · exact moveLine_sdi old new l
      · exact .inr rfl

theorem eq_of_mem_lineEvents {old new : Pins} {m : Bool} {l : Line} {e : Event} (h : e ∈ lineEvents old new m l) :
    e = .selAssert ∨ e = .selDeassert ∨ e = .reset ∨ ∃ m, e = .clkEdge m := by
  cases l with
  | selN =>
    simp only [lineEvents, moveLine] at h
    split at h
    · exact .inl (List.mem_singleton.1 h)
    · split at h
      · exact .inr (.inl (List.mem_singleton.1 h))
      · cases h
  | sck =>
    simp only [lineEvents, moveLine] at h
    split at h
    · exact .inr (.inr (.inr ⟨m, List.mem_singleton.1 h⟩))
    · cases h
  | sdi => cases h
  | rst =>
    simp only [lineEvents, moveLine] at h
    split at h
    · exact .inr (.inr (.inl (List.mem_singleton.1 h)))
    · cases h

/-- Settles O51: up to their order the events are those of the four lines' own transitions. -/
theorem pinTransitionsIssueEvents : Obligations.PinTransitionsIssueEvents := by
  unfold Obligations.PinTransitionsIssueEvents
  intro old new order horder
  obtain ⟨m, hm, heq⟩ := pinEvents_eq_flatMap new (horder.nodup_iff.2 (by decide)) old
  have hperm : (pinEvents new order old).Perm ([Line.selN, .sck, .sdi, .rst].flatMap (lineEvents old new m)) := by
    rw [heq]
    exact horder.flatMap_right _
  refine ⟨?_, ?_, ?_, ⟨m, hm, ?_⟩, fun e he => ?_⟩
  · rw [hperm.count_eq]
    simp [lineEvents, moveLine, apply_ite (List.count _)]
  · rw [hperm.count_eq]
    simp only [lineEvents, moveLine, List.flatMap_cons, List.flatMap_nil, List.count_append]
    cases old.selN <;> simp [apply_ite (List.count _)]
  · rw [hperm.count_eq]
    simp [lineEvents, moveLine, apply_ite (List.count _)]
  · have hfilter := hperm.filter fun e => e = .clkEdge true ∨ e = .clkEdge false
    by_cases hsck : old.sck = new.sck
    · rw [if_neg (by simpa using hsck)]
      exact List.perm_nil.1 (by simpa [lineEvents, moveLine, apply_ite (List.filter _), hsck] using hfilter)
    · rw [if_pos (by simpa using hsck)]
      exact List.perm_singleton.1 (by simpa [lineEvents, moveLine, apply_ite (List.filter _), hsck] using hfilter)
  · rw [heq] at he
    obtain ⟨l, -, hl⟩ := List.mem_flatMap.1 he
    exact eq_of_mem_lineEvents hl

end Sys2Proof.Machine
end

section
/-! The host contract (70_reset_and_hazards.md R178, R181): what a schedule that keeps it brings about. -/

namespace Sys2Proof.Machine

theorem conforms_cons {obeys : History → Event → Bool} {h : History} {e : Event} {es : List Event} :
    conforms obeys h (e :: es) = true ↔ obeys h e = true ∧ conforms obeys (h.observe e) es = true := by
  rw [conforms, Bool.and_eq_true]

theorem conforms_append {obeys : History → Event → Bool} {h : History} {es es' : List Event} :
    conforms obeys h (es ++ es') = true ↔ conforms obeys h es = true ∧ conforms obeys (h.after es) es' = true := by
  induction es generalizing h with
  | nil => simp [conforms]
  | cons e es ih => rw [List.cons_append, conforms_cons, conforms_cons, ih, after_cons, and_assoc]

theorem keepsBytes_of_keepsCommands {h : History} {e : Event} (hk : keepsCommands h e = true) : keepsBytes h e = true :=
  (Bool.and_eq_true_iff.1 hk).1

/-- The whole contract includes the clauses about bytes. -/
theorem conforms_keepsBytes {h : History} {es : List Event} (hc : conforms keepsCommands h es = true) :
    conforms keepsBytes h es = true := by
  induction es generalizing h with
  | nil => rfl
  | cons e es ih =>
    obtain ⟨he, hes⟩ := conforms_cons.1 hc
    exact conforms_cons.2 ⟨keepsBytes_of_keepsCommands he, ih hes⟩

theorem reset_not_mem_of_conforms {h : History} {es : List Event} (hc : conforms keepsBytes h es = true) :
    .reset ∉ es := by
  induction es generalizing h with
  | nil => exact List.not_mem_nil
  | cons e es ih =>
    obtain ⟨he, hes⟩ := conforms_cons.1 hc
    rw [List.mem_cons, not_or]
    refine ⟨?_, ih hes⟩
    rintro rfl
    cases he

/-- The byte in the mailbox that the Consumer has not taken, if there is one. -/
def State.waiting (s : State) : List Byte := if s.rdy = true then [s.br] else []

theorem waiting_eq_nil {s : State} (hrdy : s.rdy = false) : s.waiting = [] := by
  simp [State.waiting, hrdy]

theorem waiting_congr {s t : State} (hrdy : t.rdy = s.rdy) (hbr : t.br = s.br) : t.waiting = s.waiting := by
  rw [State.waiting, hrdy, hbr, State.waiting]

theorem taken_eq_nil {s : State} (he : nextEvent s ≠ .consume) : s.taken = [] := by
  simp [State.taken, he]

theorem taken_of_consume {s : State} (he : nextEvent s = .consume) : s.taken = s.waiting := by
  simp [State.taken, State.waiting, he]

/-- Under the contract a half-edge that completes a byte finds the mailbox empty, and fills it with the byte sent. -/
theorem clkEdge_sent {h : History} {s t : State} {m : Bool} (he : nextEvent s = .clkEdge m)
    (hk : keepsBytes h (.clkEdge m) = true) (hA : Agrees h s) (hstep : step s = .next t) :
    ∃ new, (h.observe (.clkEdge m)).sent = h.sent ++ new ∧ t.waiting = s.waiting ++ new := by
  have hAt := stepKeepsAgreementWithTheWire h s t hA hstep
  have heff := step_effect hstep
  rw [he] at hAt heff
  obtain ⟨hsel, hcnt, -, -, hrdy, -⟩ := hA
  have hrdy' := heff.rdy_eq
  have hbr' := heff.br_eq
  by_cases hlast : s.en = true ∧ s.cnt = 15#4
  · have hlen : h.levels.length = 15 := by rw [← hcnt, hlast.2]; rfl
    have hselected : h.selected = true := hsel ▸ hlast.1
    have hunread : h.unread = false := by simpa [keepsBytes, hselected, hlen] using hk
    have hready : t.rdy = true := hrdy'.trans (if_pos hlast)
    obtain ⟨-, -, -, -, -, hbyte⟩ := hAt
    have hlatest := hbyte hready
    rw [observe_clkEdge_last hselected hlen] at hlatest ⊢
    refine ⟨_, rfl, ?_⟩
    rw [waiting_eq_nil (hrdy.trans hunread), State.waiting, if_pos hready, Option.some.inj hlatest]
    rfl
  · have hsent : (h.observe (.clkEdge m)).sent = h.sent := by
      by_cases hselected : h.selected = true
      · rw [observe_clkEdge_partway hselected
          fun h15 => hlast ⟨hsel.trans hselected, BitVec.eq_of_toNat_eq (hcnt.trans h15)⟩]
      · rw [observe_clkEdge_deselected (by simpa using hselected)]
    refine ⟨[], by rw [hsent, List.append_nil], ?_⟩
    rw [waiting_congr (hrdy'.trans (if_neg hlast)) (hbr'.trans (if_neg hlast)), List.append_nil]
    rfl

/-- Under the contract the bytes consumed and the one waiting stay the bytes sent. -/
theorem step_keeps_sent {h : History} {s t : State} {consumed : List Byte} (hk : keepsBytes h (nextEvent s) = true)
    (hA : Agrees h s) (hsent : h.sent = consumed ++ s.waiting) (hstep : step s = .next t) :
    (h.observe (nextEvent s)).sent = consumed ++ s.taken ++ t.waiting := by
  have heff := step_effect hstep
  cases he : nextEvent s with
  | reset =>
    rw [he] at hk
    cases hk
  | selAssert =>
    rw [he] at hk heff
    obtain ⟨-, -, -, -, hrdy, -⟩ := hA
    have hunread : h.unread = false := by simpa [keepsBytes] using (Bool.and_eq_true_iff.1 hk).2
    rw [waiting_eq_nil (hrdy.trans hunread)] at hsent
    rw [taken_eq_nil (by simp [he]), waiting_eq_nil heff.rdy_eq, List.append_nil]
    exact hsent
  | clkEdge m =>
    obtain ⟨new, hnew, hwaiting⟩ := clkEdge_sent he (he ▸ hk) hA hstep
    rw [hnew, hsent, hwaiting, taken_eq_nil (by simp [he]), List.append_nil, List.append_assoc]
  | consume =>
    rw [he] at heff
    rw [taken_of_consume he, waiting_eq_nil heff.rdy_eq, List.append_nil]
    exact hsent
  | selDeassert | isBusy | put | get =>
    rw [he] at heff
    rw [taken_eq_nil (by simp [he]), waiting_congr heff.rdy_eq heff.br_eq, List.append_nil]
    exact hsent

/-- Over a schedule that keeps the contract the bytes consumed and the one waiting are the bytes sent. -/
theorem run_keeps_sent {es rest : List Event} {h : History} {s : State} {consumed : List Byte}
    (hes : s.events = es ++ rest) (hc : conforms keepsBytes h es = true) (hA : Agrees h s)
    (hsent : h.sent = consumed ++ s.waiting) {t : State} (hrun : run es.length s = .next t) :
    (h.after es).sent = consumed ++ consumedBytes es.length s ++ t.waiting := by
  induction es generalizing h s consumed with
  | nil =>
    cases hrun
    simpa [consumedBytes] using hsent
  | cons e es ih =>
    obtain ⟨u, hu, ht⟩ := run_succ_inv hrun
    have he : nextEvent s = e := nextEvent_cons hes
    have htail : u.events = es ++ rest := by rw [step_events hu, hes, List.cons_append, List.tail_cons]
    obtain ⟨hk, hc⟩ := conforms_cons.1 hc
    have hAu := stepKeepsAgreementWithTheWire h s u hA hu
    have hsent' := step_keeps_sent (he ▸ hk) hA hsent hu
    rw [he] at hAu hsent'
    rw [List.length_cons, consumedBytes_succ hu, after_cons, ih htail hc hAu hsent' ht]
    simp only [List.append_assoc]

/-- From reset, over a schedule that keeps the contract: the wire's history, the bytes consumed, and the outputs. -/
theorem run_contract {es rest : List Event} (hc : conforms keepsBytes .initial es = true) :
    ∃ t, run es.length (State.reset.schedule (es ++ rest)) = .next t ∧ t.events = rest ∧
      Agrees (History.initial.after es) t ∧
      (History.initial.after es).sent = consumedBytes es.length (State.reset.schedule (es ++ rest)) ++ t.waiting ∧
      Follows (consumedBytes es.length (State.reset.schedule (es ++ rest))) State.reset t := by
  have hstart : Agrees .initial (State.reset.schedule (es ++ rest)) := agreementHoldsAtReset
  obtain ⟨t, ht, hrest, hA⟩ := run_agrees (s := State.reset.schedule (es ++ rest)) rfl hstart
  have hreset : .reset ∉ (State.reset.schedule (es ++ rest)).events.take es.length := by
    rw [schedule_events, List.take_left]
    exact reset_not_mem_of_conforms hc
  exact ⟨t, ht, hrest, hA, run_keeps_sent (consumed := []) rfl hc hstart rfl ht,
    outputsFollowTheConsumedBytes es.length _ t hreset ht⟩

/-- Settles O56: the byte waiting, if there is one, is the only one sent and not consumed. -/
theorem noByteIsLostUnderTheHostContract : Obligations.NoByteIsLostUnderTheHostContract := by
  unfold Obligations.NoByteIsLostUnderTheHostContract
  intro es hc
  obtain ⟨t, ht, -, -, hsent, hfollows⟩ := run_contract (rest := []) hc
  rw [List.append_nil] at ht hsent hfollows
  refine ⟨t, ht, fun hrdy => ?_, fun hrdy => ?_⟩
  · rw [waiting_eq_nil hrdy, List.append_nil] at hsent
    rw [hsent]
    exact ⟨rfl, hfollows⟩
  · rw [hsent, State.waiting, if_pos hrdy]

/-- While the master is deselected, the bytes sent so far end on a command boundary. -/
def History.OnBoundary (h : History) : Prop :=
  h.selected = false → (decodeStream Config.standard .awaitingOpcode h.sent).2 = .awaitingOpcode

theorem observe_keeps_onBoundary {h : History} {e : Event} (hk : keepsCommands h e = true) (hb : h.OnBoundary) :
    (h.observe e).OnBoundary := by
  cases e with
  | reset => cases hk
  | selAssert => exact nofun
  | selDeassert => exact fun _ => by simpa [History.observe] using (Bool.and_eq_true_iff.1 hk).2
  | clkEdge m =>
    cases hsel : h.selected with
    | false =>
      rw [observe_clkEdge_deselected hsel]
      exact hb
    | true =>
      intro hnot
      by_cases hlen : h.levels.length = 15
      · rw [observe_clkEdge_last hsel hlen] at hnot
        exact absurd hnot (by simp [hsel])
      · rw [observe_clkEdge_partway hsel hlen] at hnot
        exact absurd hnot (by simp [hsel])
  | consume | isBusy | put | get => exact hb

theorem after_keeps_onBoundary {h : History} {es : List Event} (hc : conforms keepsCommands h es = true)
    (hb : h.OnBoundary) : (h.after es).OnBoundary := by
  induction es generalizing h with
  | nil => exact hb
  | cons e es ih =>
    obtain ⟨hk, hc⟩ := conforms_cons.1 hc
    exact ih hc (observe_keeps_onBoundary hk hb)

/-- Settles O57: at the SelAssert the master is deselected and nothing is unread, so the bytes consumed are the bytes
sent, which end on a boundary. -/
theorem everyWindowOpensOnACommandBoundary : Obligations.EveryWindowOpensOnACommandBoundary := by
  unfold Obligations.EveryWindowOpensOnACommandBoundary
  intro es hc
  obtain ⟨hes, hlast⟩ := conforms_append.1 hc
  obtain ⟨hselected, hunread⟩ :
      (History.initial.after es).selected = false ∧ (History.initial.after es).unread = false := by
    simpa [keepsBytes] using keepsBytes_of_keepsCommands (conforms_cons.1 hlast).1
  obtain ⟨t, ht, hrest, hA, hsent, hseq, -, -⟩ := run_contract (rest := [.selAssert]) (conforms_keepsBytes hes)
  obtain ⟨-, -, -, -, hrdy, -⟩ := hA
  have hidle : t.rdy = false := hrdy.trans hunread
  rw [waiting_eq_nil hidle, List.append_nil] at hsent
  rw [← hsent] at hseq
  exact ⟨t, ht, nextEvent_cons hrest, hseq.trans (after_keeps_onBoundary hes (fun _ => rfl) hselected), hidle⟩

end Sys2Proof.Machine
end
